-- ==== Sys2Proof/Word.lean ====
section
/-! DEFINITION. The word types of the ZS core (00_scope.md R7, R8, R12; 20_memory.md R52). -/

namespace Sys2Proof

/-- A raw byte, a packed byte or a response's data: 8 bits, unsigned (R6 `SYM_W`, R7, R58). -/
abbrev Byte := BitVec 8

/-- A symbol is any 8-bit value, in the alphabet or not (R12). -/
abbrev Symbol := Byte

/-- A command or response word, a parallel word of 16 bits (R6 `CMD_W`, `RSP_W`, R82). -/
abbrev Word := BitVec 16

/-- A wheel or table of 94 symbols, entry 0 first (R8, R40). -/
abbrev Wheel := Vector Symbol 94

/-- A message of 39 symbols, entry 0 first (R6 `MSG_LEN`, R33, R34). -/
abbrev Message := Vector Symbol 39

end Sys2Proof
end

