-- ==== Sys2Proof/Syntax.lean ====
section
/-! DEFINITION. The command set (30_encoding.md R70, R73, R74) and the assembler's lines (R78, R79). -/

namespace Sys2Proof

/-- One constructor per row of spec/opcode_table.json: the nine commands of R73, READ once per selector of R74. -/
inductive Instr where
  /-- R190. -/
  | nop
  /-- R105; `d` is the raw byte. -/
  | extByte (d : Byte)
  /-- R106. -/
  | extEnd
  /-- R130. -/
  | load
  /-- R162; `d` is the input symbol. -/
  | cipher (d : Symbol)
  /-- R163. -/
  | decodeMsg
  /-- R191, selector 0; `i` is the entry index, as in every READ. -/
  | readStat (i : Byte)
  /-- R191, selector 1. -/
  | readRefl (i : Byte)
  /-- R191, selector 2. -/
  | readScr1 (i : Byte)
  /-- R191, selector 3. -/
  | readScr2 (i : Byte)
  /-- R191, selector 4. -/
  | readScr3 (i : Byte)
  /-- R191, selector 5. -/
  | readNotch (i : Byte)
  /-- R191, selector 6. -/
  | readStart (i : Byte)
  /-- R191, selector 7. -/
  | readCmsg (i : Byte)
  /-- R191, selector 8. -/
  | readPlain (i : Byte)
  /-- R191 and R193, selector 9. -/
  | readRegs (i : Byte)
  /-- R194. -/
  | status
  /-- R195. -/
  | softReset
  deriving DecidableEq, Repr

/-- The three fields of a command word (R70). -/
structure CmdFields where
  /-- Bits [15:12]. -/
  op : BitVec 4
  /-- Bits [11:8]. -/
  sel : BitVec 4
  /-- Bits [7:0]. -/
  d : Byte
  deriving DecidableEq, Repr

/-- An 8-bit operand as the assembler reads it: a number, or a quoted character that stands for its code (R78). -/
inductive Operand where
  | num (n : Nat)
  | chr (c : Char)
  deriving DecidableEq, Repr

/-- The number an operand stands for (R7, R78). -/
def Operand.value : Operand → Nat
  | .num n => n
  | .chr c => c.toNat

/-- One line of the assembler's input, already split into its fields (log entry 9): the nine commands of R78, then
the pseudo-instructions of R79. -/
inductive AsmLine where
  | nop
  | extByte (d : Operand)
  | extEnd
  | load
  | cipher (s : Operand)
  | decodeMsg
  /-- `READ SEL, i`: the selector is written by name. -/
  | read (sel : String) (i : Operand)
  | status
  | softReset
  /-- `FEED_RAW r0, r1, ..., rn`. -/
  | feedRaw (raws : List Operand)
  /-- `PUSH_PACKED p0, p1, ..., pn`. -/
  | pushPacked (bytes : List Operand)
  /-- `PUSH_IMAGE h0, h1, h2, h3 : q0, ..., q513`. -/
  | pushImage (header payload : List Operand)
  /-- `REP n : cmd`. -/
  | rep (n : Nat) (cmd : AsmLine)
  deriving DecidableEq, Repr

end Sys2Proof
end

