-- ==== Sys2Proof/WellFormed.lean ====
section
/-! DEFINITION. Which command fields are legal (30_encoding.md R73, R74, R75) and which assembler lines are (R78, R79).
An `Instr` has no check of its own: its operands' types admit exactly the operands of R72. -/

namespace Sys2Proof

/-- The opcode is one of the nine of R73: 0x8 to 0xE are reserved. -/
def CmdFields.opKnown (f : CmdFields) : Bool := f.op.toNat ≤ 7 || f.op.toNat == 15

/-- READ takes the selectors 0 to 9 (R74); every other opcode needs `sel` = 0 (R70). -/
def CmdFields.selLegal (f : CmdFields) : Bool :=
  if f.op.toNat = 6 then decide (f.sel.toNat ≤ 9) else f.sel == 0

/-- EXT_BYTE, CIPHER and READ take an operand; every other opcode needs `d` = 0 (R70, R73). -/
def CmdFields.operandLegal (f : CmdFields) : Bool :=
  f.op.toNat == 1 || f.op.toNat == 4 || f.op.toNat == 6 || f.d == 0

/-- A legal word's fields (R73, R74, R75). -/
def CmdFields.WellFormed (f : CmdFields) : Bool := f.opKnown && f.selLegal && f.operandLegal

/-- An operand outside 0 to 255 is an assembly error (R78). -/
def Operand.WellFormed (o : Operand) : Bool := o.value < 256

/-- The selector names of R74, in the order of their numbers. -/
def selectorNames : List String :=
  ["STAT", "REFL", "SCR1", "SCR2", "SCR3", "NOTCH", "START", "CMSG", "PLAIN", "REGS"]

/-- A line the assembler accepts: operands in range, a selector name of the list (R78), the list lengths of R79. -/
def AsmLine.WellFormed : AsmLine → Bool
  | .nop | .extEnd | .load | .decodeMsg | .status | .softReset => true
  | .extByte d => d.WellFormed
  | .cipher s => s.WellFormed
  | .read sel i => selectorNames.contains sel && i.WellFormed
  | .feedRaw raws => !raws.isEmpty && raws.all Operand.WellFormed
  | .pushPacked bytes => !bytes.isEmpty && bytes.all Operand.WellFormed
  | .pushImage header payload =>
    header.length == 4 && payload.length == 514 && header.all Operand.WellFormed && payload.all Operand.WellFormed
  | .rep _ cmd => cmd.WellFormed

end Sys2Proof
end

