-- ==== Sys2Proof/Decode.lean ====
section
/-! DEFINITION. The decoder (30_encoding.md R70, R75, R77), then the encoder (R73, R74). -/

namespace Sys2Proof

/-- Why a word is illegal (R75). Every one of them raises ILLEGAL_CMD (60_exceptions.md R221). -/
inductive Illegal where
  /-- Opcode 0x8 to 0xE (R76). -/
  | reservedOpcode
  /-- `sel` ≠ 0 in a word whose opcode is not READ. -/
  | selectorNotZero
  /-- READ with a selector of 10 to 15 (R76). -/
  | reservedSelector
  /-- `d` ≠ 0 in a word that takes no operand. -/
  | operandNotZero
  deriving DecidableEq, Repr

/-- The fields of a command word (R70). -/
def fieldsOf (w : Word) : CmdFields :=
  { op := w.extractLsb' 12 4, sel := w.extractLsb' 8 4, d := w.extractLsb' 0 8 }

/-- The command word with given fields (R70). -/
def CmdFields.word (f : CmdFields) : Word := f.op ++ f.sel ++ f.d

/-- A command that takes neither selector nor operand (R73). -/
def decodeBare (f : CmdFields) (i : Instr) : Except Illegal Instr :=
  if f.sel ≠ 0 then .error .selectorNotZero else if f.d ≠ 0 then .error .operandNotZero else .ok i

/-- A command that takes an operand and no selector (R73). -/
def decodeOperand (f : CmdFields) (i : Byte → Instr) : Except Illegal Instr :=
  if f.sel ≠ 0 then .error .selectorNotZero else .ok (i f.d)

/-- READ, by its selector (R74). -/
def decodeRead (f : CmdFields) : Except Illegal Instr :=
  match f.sel.toNat with
  | 0 => .ok (.readStat f.d)
  | 1 => .ok (.readRefl f.d)
  | 2 => .ok (.readScr1 f.d)
  | 3 => .ok (.readScr2 f.d)
  | 4 => .ok (.readScr3 f.d)
  | 5 => .ok (.readNotch f.d)
  | 6 => .ok (.readStart f.d)
  | 7 => .ok (.readCmsg f.d)
  | 8 => .ok (.readPlain f.d)
  | 9 => .ok (.readRegs f.d)
  | _ => .error .reservedSelector

/-- R77's case distinction on the opcode. -/
def decodeFields (f : CmdFields) : Except Illegal Instr :=
  match f.op.toNat with
  | 0x0 => decodeBare f .nop
  | 0x1 => decodeOperand f .extByte
  | 0x2 => decodeBare f .extEnd
  | 0x3 => decodeBare f .load
  | 0x4 => decodeOperand f .cipher
  | 0x5 => decodeBare f .decodeMsg
  | 0x6 => decodeRead f
  | 0x7 => decodeBare f .status
  | 0xF => decodeBare f .softReset
  | _ => .error .reservedOpcode

/-- The decoder: total on every 16-bit word, from the word alone (R77). -/
def decode (w : Word) : Except Illegal Instr := decodeFields (fieldsOf w)

/-- The host's view of the decoder: `w` holds the `nbits` bits of a word, bits above them 0. A command is one word of
16 bits and has no byte order (R70, R82). -/
def decodeTableWord (nbits w : Nat) : Option Instr := (decode (BitVec.ofNat 16 (w % 2 ^ nbits))).toOption

/-- The fields of each command's word (R73, R74). -/
def Instr.fields : Instr → CmdFields
  | .nop => ⟨0x0, 0, 0⟩
  | .extByte d => ⟨0x1, 0, d⟩
  | .extEnd => ⟨0x2, 0, 0⟩
  | .load => ⟨0x3, 0, 0⟩
  | .cipher d => ⟨0x4, 0, d⟩
  | .decodeMsg => ⟨0x5, 0, 0⟩
  | .readStat i => ⟨0x6, 0, i⟩
  | .readRefl i => ⟨0x6, 1, i⟩
  | .readScr1 i => ⟨0x6, 2, i⟩
  | .readScr2 i => ⟨0x6, 3, i⟩
  | .readScr3 i => ⟨0x6, 4, i⟩
  | .readNotch i => ⟨0x6, 5, i⟩
  | .readStart i => ⟨0x6, 6, i⟩
  | .readCmsg i => ⟨0x6, 7, i⟩
  | .readPlain i => ⟨0x6, 8, i⟩
  | .readRegs i => ⟨0x6, 9, i⟩
  | .status => ⟨0x7, 0, 0⟩
  | .softReset => ⟨0xF, 0, 0⟩

/-- The encoder: the one legal word of a command (R73, R74). -/
def encode (i : Instr) : Word := i.fields.word

end Sys2Proof
end

