-- ==== Sys2Proof/Config.lean ====
section
/-! DEFINITION. What is fixed for one ZS core: the parameters of 00_scope.md R6, the one open parameter, and the
free values that a reset leaves behind. -/

namespace Sys2Proof.Config

/-- R6 `WHEEL_LEN`: the entries of a wheel or table. -/
abbrev wheelLen : Nat := 94

/-- R6 `REFL_PAIRS`: the pairs of the reflector. -/
abbrev reflPairs : Nat := 47

/-- R6 `GROUP`: the raw bytes of one packed byte. -/
abbrev group : Nat := 8

/-- R6 `HEADER_SKIP`: the packed bytes dropped after reset. -/
abbrev headerSkip : Nat := 4

/-- R6 `PAYLOAD_LEN`: the packed bytes kept after the header skip. -/
abbrev payloadLen : Nat := 514

/-- R6 `CAPTURE_LEN`: the packed bytes counted since reset. -/
abbrev captureLen : Nat := 518

/-- R6 `RAW_MIN`: the raw bytes that fill the capture. -/
abbrev rawMin : Nat := 4144

/-- R6 `MSG_LEN`: the symbols of the ciphertext field. -/
abbrev msgLen : Nat := 39

/-- R6 `PIXEL_OFFSET`: the first file byte the HOST sends (R57, R263); the block does not know it. -/
abbrev pixelOffset : Nat := 54

/-- R6 `ALPHABET`: the 94 codes 33 to 126, in rising order. The block never checks it (R12, R41). -/
def alphabet : List Symbol := (List.range' 33 94).map (BitVec.ofNat 8)

/-- R6 `LATENCY`, OPEN (D32): the cycles from accepting a command word to its response. No rule depends on it and
the model is untimed (R269), so no definition of the model reads it. -/
opaque latency : Word → Nat

/-- FREE VALUE (log entry 3): the byte that reset number `epoch` leaves at place `slot` of the registers whose
reset value R261 calls unspecified. -/
opaque freeByte (epoch slot : Nat) : Byte

end Sys2Proof.Config
end

