-- ==== Sys2Proof/Machine/State.lean ====
section
/-! DEFINITION. The state of the block (10_state.md R20, held whole), its host interface (30_encoding.md R80, R81), and
the reasons a step can stop. -/

namespace Sys2Proof.Machine

/-- The capture buffer `payload` as cells in one canonical form: indexes strictly rising and below 514, no cell equal
to what an unlisted index reads as (R9, R26, R50). -/
abbrev Memory := List Host.Cell

/-- `eng_state`; the encoding 3 never occurs (R27). -/
inductive EngState where
  /-- No rotors have been constructed since reset. -/
  | idle
  /-- LOAD has completed and no error has occurred since. -/
  | ready
  /-- An error has occurred since the last reset. -/
  | faulted
  deriving DecidableEq, Repr

/-- The values of `err_code`; the codes 6 and 7 are never recorded (R35, R222). -/
inductive ErrCode where
  /-- No error since reset. -/
  | noError
  /-- LOAD with fewer than 514 packed bytes after the header skip (R220, R131). -/
  | malformed
  /-- A lookup found nothing (R220, R150). -/
  | consistency
  /-- The command word is illegal (R221, R75). -/
  | illegalCmd
  /-- The command needs constructed rotors and the engine is IDLE (R221). -/
  | notReady
  /-- A READ index is at or past its table's limit (R221). -/
  | range
  deriving DecidableEq, Repr

/-- The three rotors (R6 `NROT`). -/
inductive Rotor where
  | r1 | r2 | r3
  deriving DecidableEq, Repr

/-- The values of `fault_site`; the sites 11 to 15 are never recorded (R35, R223). -/
inductive FaultSite where
  /-- Site 0: the error is not a failed lookup. -/
  | noLookup
  /-- Sites 1, 2, 3: LOAD's start step of a rotor. -/
  | start (r : Rotor)
  /-- Sites 4, 5, 6: the outbound lookup of rotor 1, 2, 3. -/
  | outbound (r : Rotor)
  /-- Site 7: the reflector lookup. -/
  | reflector
  /-- Sites 8, 9, 10: the inbound lookup of rotor 3, 2, 1. -/
  | inbound (r : Rotor)
  deriving DecidableEq, Repr

/-- The input ports at one rising edge of `clk` at which the block is not busy with a command (R80, R81, R260). -/
structure PortInput where
  /-- `rst_n`: false holds the block in reset. -/
  rstN : Bool
  /-- `cmd_valid` with `cmd_data`: the word the host offers, if it offers one. -/
  cmd : Option Word
  /-- `rsp_ready`: the host takes the response that is offered. -/
  rspReady : Bool
  deriving DecidableEq, Repr

/-- The complete state of the block (R20), then its host interface and the model's own fields. -/
structure State where
  /-- `ext_acc`, the packer's accumulator (R23). -/
  extAcc : Byte
  /-- `ext_cnt`, the bits held in `ext_acc` (R24). -/
  extCnt : BitVec 3
  /-- `pkt_count`, the packed bytes since reset, saturating at 518 (R25). -/
  pktCount : BitVec 10
  /-- `payload[0..513]`, the capture buffer (R26). -/
  payload : Memory
  /-- `eng_state` (R27). -/
  engState : EngState
  /-- `stat[0..93]`, the static_wheel ROM (R28). -/
  stat : Wheel
  /-- `refl[0..93]`, the reflector ROM (R29). -/
  refl : Wheel
  /-- `scr1`, rotor 1's scrambled_wheel register (R30). -/
  scr1 : Wheel
  /-- `scr2`, rotor 2's scrambled_wheel register (R30). -/
  scr2 : Wheel
  /-- `scr3`, rotor 3's scrambled_wheel register (R30). -/
  scr3 : Wheel
  /-- `notch1` (R31). -/
  notch1 : Symbol
  /-- `notch2` (R31). -/
  notch2 : Symbol
  /-- `start1` (R32). -/
  start1 : Symbol
  /-- `start2` (R32). -/
  start2 : Symbol
  /-- `start3` (R32). -/
  start3 : Symbol
  /-- `cmsg[0..38]`, the ciphertext field (R33). -/
  cmsg : Message
  /-- `plain[0..38]`, the output buffer (R34). -/
  plain : Message
  /-- `out_count`, the entries of `plain` written since DECODE_MSG last started (R34). -/
  outCount : BitVec 6
  /-- `err_code` (R35). -/
  errCode : ErrCode
  /-- `fault_site` (R35). -/
  faultSite : FaultSite
  /-- `fault_sym` (R35). -/
  faultSym : Symbol
  /-- The response held on `rsp_data` while `rsp_valid` = 1, until the host takes it (R81). -/
  rsp : Option Word
  /-- MODEL'S OWN (log entry 1): what the host will drive on the input ports, edge by edge, the next first. -/
  inputs : List PortInput
  /-- MODEL'S OWN (log entry 1): the responses the host has taken, the newest first. -/
  taken : List Word
  /-- MODEL'S OWN (log entry 3): the number of resets the step has performed, the argument of the free values. -/
  freeIdx : Nat
  deriving DecidableEq, Repr

/-- Why a step faults. It has no constructor: every error of the spec is a next state (60_exceptions.md R224), and an
index outside the capture buffer cannot be written down (Machine/Ops.lean takes a `Fin 514`). Safe: nothing is stopped
that the spec lets go on. -/
inductive Fault
  deriving DecidableEq, Repr

/-- Why a step is refused. -/
inductive Refusal where
  /-- An arm of `exec` that has no meaning yet. Nothing raises it: every arm has its meaning. Safe. -/
  | notModelled (mnemonic : String)
  deriving DecidableEq, Repr

/-- The state right after reset (70_reset_and_hazards.md R261). The registers R261 calls unspecified are zero here:
DESIGN CHOICE, log entry 2. Nothing is on the ports and no response is held. -/
def State.reset : State :=
  { extAcc := 0
    extCnt := 0
    pktCount := 0
    payload := []
    engState := .idle
    stat := Vector.replicate 94 0
    refl := Vector.replicate 94 0
    scr1 := Vector.replicate 94 0
    scr2 := Vector.replicate 94 0
    scr3 := Vector.replicate 94 0
    notch1 := 0
    notch2 := 0
    start1 := 0
    start2 := 0
    start3 := 0
    cmsg := Vector.replicate 39 0
    plain := Vector.replicate 39 0
    outCount := 0
    errCode := .noError
    faultSite := .noLookup
    faultSym := 0
    rsp := none
    inputs := []
    taken := []
    freeIdx := 0 }

end Sys2Proof.Machine
end

