-- ==== Sys2Proof/Machine/Flags.lean ====
section
/-! DEFINITION. The encodings of the mode and error fields and the status byte (10_state.md R27, R36;
60_exceptions.md R222, R223). The block has no flags that persist between commands (R38). -/

namespace Sys2Proof.Machine

/-- `eng_state` as its 2 bits (R27). -/
def EngState.bits : EngState → BitVec 2
  | .idle => 0
  | .ready => 1
  | .faulted => 2

/-- `err_code` as its 3 bits (R222). -/
def ErrCode.bits : ErrCode → BitVec 3
  | .noError => 0
  | .malformed => 1
  | .consistency => 2
  | .illegalCmd => 3
  | .notReady => 4
  | .range => 5

/-- `fault_site` as its 4 bits (R223). -/
def FaultSite.bits : FaultSite → BitVec 4
  | .noLookup => 0
  | .start .r1 => 1
  | .start .r2 => 2
  | .start .r3 => 3
  | .outbound .r1 => 4
  | .outbound .r2 => 5
  | .outbound .r3 => 6
  | .reflector => 7
  | .inbound .r3 => 8
  | .inbound .r2 => 9
  | .inbound .r1 => 10

/-- STATUS bit CAP_FULL (R36). -/
def capFull (s : State) : Bool := s.pktCount == 518

/-- STATUS bit MSG_DONE (R36). -/
def msgDone (s : State) : Bool := s.outCount == 39

/-- STATUS bit EXT_PART (R36). -/
def extPart (s : State) : Bool := s.extCnt != 0

/-- The status byte `{EXT_PART, MSG_DONE, ERR[2:0], CAP_FULL, ENG[1:0]}` (R36, R194). -/
def statusByte (s : State) : Byte :=
  BitVec.ofBool (extPart s) ++ BitVec.ofBool (msgDone s) ++ s.errCode.bits ++ BitVec.ofBool (capFull s)
    ++ s.engState.bits

end Sys2Proof.Machine
end

