-- ==== Sys2Proof/Machine/Ops.lean ====
section
/-! DEFINITION. The shared operations: the capture buffer (00_scope.md R9), the response (R10; 30_encoding.md R71),
raising an error and its way out, reset (60_exceptions.md R224, R227, R228; 70_reset_and_hazards.md R261). -/

namespace Sys2Proof.Machine

/-! ### The capture buffer -/

/-- What an index that nothing has written since reset reads as: DESIGN CHOICE, log entry 4. -/
def Memory.unlisted : Byte := 0

/-- Reading one byte of a memory. -/
def Memory.read : Memory → Nat → Byte
  | [], _ => Memory.unlisted
  | (b, v) :: m, a => if a = b then v else Memory.read m a

/-- Writing one byte; the canonical form is kept. -/
def Memory.write : Memory → Nat → Byte → Memory
  | [], a, v => if v = Memory.unlisted then [] else [(a, v)]
  | (b, u) :: m, a, v =>
    if a < b then (if v = Memory.unlisted then (b, u) :: m else (a, v) :: (b, u) :: m)
    else if a = b then (if v = Memory.unlisted then m else (a, v) :: m)
    else (b, u) :: Memory.write m a v

/-- The canonical form: indexes strictly rising and below 514, no cell equal to what an unlisted index reads as. -/
def Memory.wf (m : Memory) : Bool :=
  decide ((m.map Prod.fst).Pairwise (· < ·)) && m.all fun c => decide (c.1 < 514) && c.2 != Memory.unlisted

/-- `MemRead(i, 1)`: entry `i` of `payload` (R9). -/
def memRead (i : Fin 514) (s : State) : Byte := Memory.read s.payload i

/-- `MemWrite(i, 1, v)`: entry `i` of `payload` becomes `v` (R9). -/
def memWrite (i : Fin 514) (v : Byte) (s : State) : State := { s with payload := Memory.write s.payload i v }

/-! ### The response -/

/-- The response word `{err, dv, 000000, data}` (R71). -/
def responseWord (err dv : Bool) (data : Byte) : Word := BitVec.ofBool err ++ BitVec.ofBool dv ++ (0 : BitVec 6) ++ data

/-- `respond(err, dv, data)`, the one response of a command (R9, R71). -/
def respond (err dv : Bool) (data : Byte) (s : State) : State := { s with rsp := some (responseWord err dv data) }

/-- `ok()` (R10). -/
def ok (s : State) : State := respond false false 0 s

/-- `ok(v)` (R10). -/
def okv (v : Byte) (s : State) : State := respond false true v s

/-! ### Errors -/

/-- A failed lookup: where it was made and the symbol looked for (R150, R223). -/
structure Miss where
  site : FaultSite
  sym : Symbol
  deriving DecidableEq, Repr

/-- `raise E(site, sym)`: fault entry (R224). Called outside FAULTED only. -/
def raise (e : ErrCode) (site : FaultSite) (sym : Symbol) (s : State) : State :=
  respond true false (e.bits.setWidth 8)
    { s with errCode := e, faultSite := site, faultSym := sym, engState := .faulted }

/-- An error that is not a failed lookup: site 0, symbol 0x00 (R223). -/
def raisePlain (e : ErrCode) (s : State) : State := raise e .noLookup 0 s

/-- CONSISTENCY at a failed lookup (R150). -/
def raiseMiss (m : Miss) (s : State) : State := raise .consistency m.site m.sym s

/-- The answer to every word that FAULTED does not execute: the recorded error, no effect (R227). -/
def answerFaulted (s : State) : State := respond true false (s.errCode.bits.setWidth 8) s

/-- The FAULTED gate, the first check of R226: in FAULTED the command has no effect (R227), else it runs. -/
def gated (body : State → State) (s : State) : Host.Outcome State Fault Refusal :=
  .next (if s.engState = .faulted then answerFaulted s else body s)

/-- The NOT_READY check (R221, R226): the command needs constructed rotors. -/
def whenReady (body : State → State) (s : State) : State :=
  if s.engState = .idle then raisePlain .notReady s else body s

/-- An illegal word: ILLEGAL_CMD outside FAULTED, no effect in it (R75, R226, R227). -/
def illegalWord (s : State) : Host.Outcome State Fault Refusal := gated (raisePlain .illegalCmd) s

/-! ### Reset -/

/-- A wheel of free values: `base` keeps the places of different registers apart. -/
def freeWheel (epoch base : Nat) : Wheel := Vector.ofFn fun j => Config.freeByte epoch (base + j)

/-- A message of free values. -/
def freeMessage (epoch base : Nat) : Message := Vector.ofFn fun j => Config.freeByte epoch (base + j)

/-- `RESET_STATE()` (R261), the only way out of FAULTED (R228). The registers it leaves unspecified get free values
(log entry 3); the capture buffer is emptied (log entry 4). -/
def resetState (s : State) : State :=
  { s with
    extAcc := 0
    extCnt := 0
    pktCount := 0
    engState := .idle
    outCount := 0
    errCode := .noError
    faultSite := .noLookup
    faultSym := 0
    payload := []
    stat := freeWheel s.freeIdx 0
    refl := freeWheel s.freeIdx 94
    scr1 := freeWheel s.freeIdx 188
    scr2 := freeWheel s.freeIdx 282
    scr3 := freeWheel s.freeIdx 376
    notch1 := Config.freeByte s.freeIdx 470
    notch2 := Config.freeByte s.freeIdx 471
    start1 := Config.freeByte s.freeIdx 472
    start2 := Config.freeByte s.freeIdx 473
    start3 := Config.freeByte s.freeIdx 474
    cmsg := freeMessage s.freeIdx 475
    plain := freeMessage s.freeIdx 514
    freeIdx := s.freeIdx + 1 }

end Sys2Proof.Machine
end

