-- ==== Sys2Proof/Machine/Wheels.lean ====
section
/-! DEFINITION. Wheels: lookup and rotation (00_scope.md R8), the rotor_stepper (42_rotor_engine.md R151 to R160). -/

namespace Sys2Proof.Machine

/-- `indexOf(W, x)`: the least `j` with `W[j]` = `x`, `none` for NOTFOUND (R8). -/
def indexOf (w : Wheel) (x : Symbol) : Option (Fin 94) := (w.toList.finIdxOf? x).map (Fin.cast w.length_toList)

/-- `rotl(W, i)`: the cyclic left rotation, entry `j` becoming `W[(j + i) mod 94]` (R8). -/
def rotl (w : Wheel) (i : Nat) : Wheel := ⟨(w.toList.rotate i).toArray, by simp⟩

/-- `STEP_TO(r, t)` on the wheel itself: `none` where `t` does not occur (R151). -/
def stepTo (w : Wheel) (t : Symbol) : Option Wheel := (indexOf w t).map fun i : Fin 94 => rotl w i.val

/-- `STEP(r)` on the wheel itself: the step to its last entry, which always occurs (R152). -/
def stepDefault (w : Wheel) : Wheel := (stepTo w w[93]).getD w

/-- Rotor `r`'s scrambled wheel (R30). -/
def State.scr (s : State) : Rotor → Wheel
  | .r1 => s.scr1
  | .r2 => s.scr2
  | .r3 => s.scr3

/-- Writing rotor `r`'s scrambled wheel and no other (R42). -/
def State.setScr (s : State) (r : Rotor) (w : Wheel) : State :=
  match r with
  | .r1 => { s with scr1 := w }
  | .r2 => { s with scr2 := w }
  | .r3 => { s with scr3 := w }

/-- Rotor `r`'s start symbol (R32). -/
def State.start (s : State) : Rotor → Symbol
  | .r1 => s.start1
  | .r2 => s.start2
  | .r3 => s.start3

/-- `STEP(r)` (R152). -/
def stepRotor (r : Rotor) (s : State) : State := s.setScr r (stepDefault (s.scr r))

/-- The stepping of one iteration: both carries sampled before any wheel steps (R158), then rotors 3, 2, 1 (R159). -/
def stepRotors (s : State) : State :=
  let c3 := s.scr2[0] == s.notch2
  let c2 := s.scr1[0] == s.notch1
  let s := if c3 then stepRotor .r3 s else s
  let s := if c2 then stepRotor .r2 s else s
  stepRotor .r1 s

end Sys2Proof.Machine
end

