-- ==== Sys2Proof/Machine/Cipher.lean ====
section
/-! DEFINITION. The substitution_pipeline, one iteration, CIPHER and DECODE_MSG (42_rotor_engine.md). -/

namespace Sys2Proof.Machine

/-- `OUT(r, x)` (R155). -/
def outbound (s : State) (r : Rotor) (x : Symbol) : Except Miss Symbol :=
  match indexOf s.stat x with
  | none => .error ⟨.outbound r, x⟩
  | some i => .ok (s.scr r)[i]

/-- `IN(r, x)` (R156). -/
def inbound (s : State) (r : Rotor) (x : Symbol) : Except Miss Symbol :=
  match indexOf (s.scr r) x with
  | none => .error ⟨.inbound r, x⟩
  | some i => .ok s.stat[i]

/-- The other index of a reflector pair: the one after an even index, the one before an odd index (R157). -/
def mate (i : Fin 94) : Fin 94 := if h : i.val % 2 = 0 then ⟨i.val + 1, by omega⟩ else ⟨i.val - 1, by omega⟩

/-- `REFLECT(x)` (R157). -/
def reflect (s : State) (x : Symbol) : Except Miss Symbol :=
  match indexOf s.refl x with
  | none => .error ⟨.reflector, x⟩
  | some i => .ok s.refl[mate i]

/-- The forward pass, the reflection and the return pass; the first failed lookup ends them (R161, steps 2 to 4). -/
def substitute (s : State) (x : Symbol) : Except Miss Symbol := do
  let x ← outbound s .r1 x
  let x ← outbound s .r2 x
  let x ← outbound s .r3 x
  let x ← reflect s x
  let x ← inbound s .r3 x
  let x ← inbound s .r2 x
  inbound s .r1 x

/-- CIPHER in READY (R162): the stepping, then the lookups on the stepped wheels. -/
def cipherBody (d : Symbol) (s : State) : State :=
  match substitute (stepRotors s) d with
  | .ok y => okv y (stepRotors s)
  | .error m => raiseMiss m (stepRotors s)

/-- CIPHER (R162). -/
def execCipher (d : Symbol) (s : State) : Host.Outcome State Fault Refusal := gated (whenReady (cipherBody d)) s

/-- The loop of DECODE_MSG over the listed indexes (R163); the first failed lookup ends it (R164). -/
def decodeLoop : List (Fin 39) → State → State × Option Miss
  | [], s => (s, none)
  | k :: ks, s =>
    match substitute (stepRotors s) s.cmsg[k] with
    | .error m => (stepRotors s, some m)
    | .ok y =>
      decodeLoop ks
        { stepRotors s with plain := s.plain.set k y, outCount := BitVec.ofNat 6 (k.val + 1) }

/-- DECODE_MSG in READY (R163). -/
def decodeMsgBody (s : State) : State :=
  match decodeLoop (List.finRange 39) { s with outCount := 0 } with
  | (t, none) => ok t
  | (t, some m) => raiseMiss m t

/-- DECODE_MSG (R163). -/
def execDecodeMsg (s : State) : Host.Outcome State Fault Refusal := gated (whenReady decodeMsgBody) s

end Sys2Proof.Machine
end

