-- ==== Sys2Proof/Machine/Operands.lean ====
section
/-! DEFINITION. What the operand `d` selects (30_encoding.md R72): a raw byte's selected bit, and the tables of the read
view (43_host_access.md R192; 10_state.md R37). A table is a list, so that its length is its limit. -/

namespace Sys2Proof.Machine

/-- The LSB selector: bit 0 of a raw byte and no other (R100). -/
def lsb (r : Byte) : BitVec 1 := r.extractLsb' 0 1

/-- Selector 5 (R192). -/
def notchTable (s : State) : List Byte := [s.notch1, s.notch2]

/-- Selector 6 (R192). -/
def startTable (s : State) : List Byte := [s.start1, s.start2, s.start3]

/-- Selector 8: `plain[i]` for `i` < `out_count` (R34, R192). -/
def plainTable (s : State) : List Byte := s.plain.toList.take s.outCount.toNat

/-- Selector 9, the register view (R37). -/
def regsTable (s : State) : List Byte :=
  [s.extCnt.setWidth 8, s.extAcc, s.pktCount.extractLsb' 0 8, (s.pktCount.extractLsb' 8 2).setWidth 8,
    s.outCount.setWidth 8, s.errCode.bits.setWidth 8, s.faultSite.bits.setWidth 8, s.faultSym]

end Sys2Proof.Machine
end

