-- ==== Sys2Proof/Machine/Extractor.lean ====
section
/-! DEFINITION. The bit extractor (40_bit_extractor.md): EXT_BYTE and EXT_END. -/

namespace Sys2Proof.Machine

/-- The barrel-shift packer: the accumulator with the selected bit of `d` placed at bit `7 − ext_cnt` (R100, R101). -/
def packBit (d : Byte) (s : State) : Byte := s.extAcc ||| ((lsb d).setWidth 8 <<< (7 - s.extCnt.toNat))

/-- `CAPTURE(p)`: the header skip and the capture buffer (R104). -/
def capture (p : Byte) (s : State) : State :=
  if h : s.pktCount.toNat < 518 then
    let t := if s.pktCount.toNat < Config.headerSkip then s else memWrite ⟨s.pktCount.toNat - 4, by omega⟩ p s
    { t with pktCount := s.pktCount + 1 }
  else s

/-- EXT_BYTE outside FAULTED (R105): the eighth bit completes the group (R103). -/
def extByteBody (d : Byte) (s : State) : State :=
  if s.extCnt = 7 then okv (packBit d s) (capture (packBit d s) { s with extAcc := 0, extCnt := 0 })
  else ok { s with extAcc := packBit d s, extCnt := s.extCnt + 1 }

/-- EXT_BYTE (R105). -/
def execExtByte (d : Byte) (s : State) : Host.Outcome State Fault Refusal := gated (extByteBody d) s

/-- EXT_END outside FAULTED: a partial group is dropped (R106, R107). -/
def extEndBody (s : State) : State := ok { s with extAcc := 0, extCnt := 0 }

/-- EXT_END (R106). -/
def execExtEnd (s : State) : Host.Outcome State Fault Refusal := gated extEndBody s

end Sys2Proof.Machine
end

