-- ==== Sys2Proof/Machine/FieldLayout.lean ====
section
/-! DEFINITION. LOAD: the field layout and the rotors' construction (41_field_layout.md; 20_memory.md R54). -/

namespace Sys2Proof.Machine

/-- `payload[a..a+n-1]`, entry `a` first (R54, R130). -/
def payloadSlice (n a : Nat) (h : a + n ≤ 514) (s : State) : Vector Byte n :=
  Vector.ofFn fun j => memRead ⟨a + j, by omega⟩ s

/-- The field copies of LOAD (R54, R130, R132). -/
def sliceFields (s : State) : State :=
  { s with
    stat := payloadSlice 94 0 (by decide) s
    refl := payloadSlice 94 94 (by decide) s
    scr1 := payloadSlice 94 188 (by decide) s
    scr2 := payloadSlice 94 282 (by decide) s
    scr3 := payloadSlice 94 376 (by decide) s
    notch1 := memRead 470 s
    notch2 := memRead 471 s
    start1 := memRead 472 s
    start2 := memRead 473 s
    start3 := memRead 474 s
    cmsg := payloadSlice 39 475 (by decide) s }

/-- The start steps of the listed rotors in order; the first start symbol that is absent ends them (R133, R134). -/
def startSteps : List Rotor → State → State × Option Miss
  | [], s => (s, none)
  | r :: rs, s =>
    match stepTo (s.scr r) (s.start r) with
    | none => (s, some ⟨.start r, s.start r⟩)
    | some w => startSteps rs (s.setScr r w)

/-- LOAD outside FAULTED (R130); the writes before a failing start step stay (R136, R225). -/
def loadBody (s : State) : State :=
  if s.pktCount.toNat < Config.captureLen then raisePlain .malformed s
  else
    match startSteps [.r1, .r2, .r3] (sliceFields s) with
    | (t, none) => ok { t with outCount := 0, engState := .ready }
    | (t, some m) => raiseMiss m t

/-- LOAD (R130). -/
def execLoad (s : State) : Host.Outcome State Fault Refusal := gated loadBody s

end Sys2Proof.Machine
end

