-- ==== Sys2Proof/Machine/HostAccess.lean ====
section
/-! DEFINITION. NOP, READ, STATUS and SOFT_RESET (43_host_access.md). -/

namespace Sys2Proof.Machine

/-- NOP runs in every state (R190). -/
def execNop (s : State) : Host.Outcome State Fault Refusal := .next (ok s)

/-- Answering entry `i` of a table, or RANGE at or past its limit (R191, R192). -/
def readEntry (table : List Byte) (i : Byte) (s : State) : State :=
  match table[i.toNat]? with
  | some v => okv v s
  | none => raisePlain .range s

/-- READ of selectors 0 to 8: FAULTED, then NOT_READY, then RANGE (R191, R226). -/
def readTable (table : State → List Byte) (i : Byte) (s : State) : Host.Outcome State Fault Refusal :=
  gated (whenReady fun s => readEntry (table s) i s) s

/-- READ STAT (R191, R192). -/
def execReadStat (i : Byte) (s : State) : Host.Outcome State Fault Refusal := readTable (fun s => s.stat.toList) i s

/-- READ REFL (R191, R192). -/
def execReadRefl (i : Byte) (s : State) : Host.Outcome State Fault Refusal := readTable (fun s => s.refl.toList) i s

/-- READ SCR1 (R191, R192). -/
def execReadScr1 (i : Byte) (s : State) : Host.Outcome State Fault Refusal := readTable (fun s => s.scr1.toList) i s

/-- READ SCR2 (R191, R192). -/
def execReadScr2 (i : Byte) (s : State) : Host.Outcome State Fault Refusal := readTable (fun s => s.scr2.toList) i s

/-- READ SCR3 (R191, R192). -/
def execReadScr3 (i : Byte) (s : State) : Host.Outcome State Fault Refusal := readTable (fun s => s.scr3.toList) i s

/-- READ NOTCH (R191, R192). -/
def execReadNotch (i : Byte) (s : State) : Host.Outcome State Fault Refusal := readTable notchTable i s

/-- READ START (R191, R192). -/
def execReadStart (i : Byte) (s : State) : Host.Outcome State Fault Refusal := readTable startTable i s

/-- READ CMSG (R191, R192). -/
def execReadCmsg (i : Byte) (s : State) : Host.Outcome State Fault Refusal := readTable (fun s => s.cmsg.toList) i s

/-- READ PLAIN (R191, R192). -/
def execReadPlain (i : Byte) (s : State) : Host.Outcome State Fault Refusal := readTable plainTable i s

/-- READ REGS runs in every state for an index below 8 (R191, R193, R227). -/
def execReadRegs (i : Byte) (s : State) : Host.Outcome State Fault Refusal :=
  if i.toNat < 8 then .next (readEntry (regsTable s) i s) else gated (raisePlain .range) s

/-- STATUS runs in every state (R194). -/
def execStatus (s : State) : Host.Outcome State Fault Refusal := .next (okv (statusByte s) s)

/-- SOFT_RESET runs in every state (R195). -/
def execSoftReset (s : State) : Host.Outcome State Fault Refusal := .next (ok (resetState s))

end Sys2Proof.Machine
end

