-- ==== Sys2Proof/Machine/Dispatch.lean ====
section
/-! DEFINITION. One arm per command: its meaning. -/

namespace Sys2Proof.Machine

/-- One command as one atomic step (R11). -/
def exec (i : Instr) (s : State) : Host.Outcome State Fault Refusal :=
  match i with
  | .nop => Sys2Proof.Machine.execNop s
  | .extByte d => Sys2Proof.Machine.execExtByte d s
  | .extEnd => Sys2Proof.Machine.execExtEnd s
  | .load => Sys2Proof.Machine.execLoad s
  | .cipher d => Sys2Proof.Machine.execCipher d s
  | .decodeMsg => Sys2Proof.Machine.execDecodeMsg s
  | .readStat k => Sys2Proof.Machine.execReadStat k s
  | .readRefl k => Sys2Proof.Machine.execReadRefl k s
  | .readScr1 k => Sys2Proof.Machine.execReadScr1 k s
  | .readScr2 k => Sys2Proof.Machine.execReadScr2 k s
  | .readScr3 k => Sys2Proof.Machine.execReadScr3 k s
  | .readNotch k => Sys2Proof.Machine.execReadNotch k s
  | .readStart k => Sys2Proof.Machine.execReadStart k s
  | .readCmsg k => Sys2Proof.Machine.execReadCmsg k s
  | .readPlain k => Sys2Proof.Machine.execReadPlain k s
  | .readRegs k => Sys2Proof.Machine.execReadRegs k s
  | .status => Sys2Proof.Machine.execStatus s
  | .softReset => Sys2Proof.Machine.execSoftReset s

end Sys2Proof.Machine
end

