-- ==== Sys2Proof/Machine/Ports.lean ====
section
/-! DEFINITION. The ports and their handshake (30_encoding.md R80, R81; 70_reset_and_hazards.md R260). -/

namespace Sys2Proof.Machine

/-- `cmd_ready`: not in reset, and no response waits to be taken (R81, R260). -/
def cmdReady (p : PortInput) (s : State) : Bool := p.rstN && s.rsp.isNone

/-- `rsp_valid` with `rsp_data`: the response offered, none in reset (R81, R260). -/
def rspPort (p : PortInput) (s : State) : Option Word := if p.rstN then s.rsp else none

/-- The `rst_n` pin at 0: RESET_STATE, and a response not yet taken is lost (R260). -/
def pinReset (s : State) : State := { resetState s with rsp := none }

/-- The host takes the response that is offered (R81). -/
def takeResponse (r : Word) (s : State) : State := { s with rsp := none, taken := r :: s.taken }

/-- What one rising edge brings: the interface's own work, or the acceptance of a command word. -/
inductive PortAction where
  /-- No command is accepted; the state after the edge. -/
  | done (s : State)
  /-- The word `w` is accepted, in the state it runs in. -/
  | run (w : Word) (s : State)
  deriving DecidableEq, Repr

/-- One rising edge of the interface (R81, R260). With nothing more from the host the block holds its state (R236). -/
def portAction (s : State) : PortAction :=
  match s.inputs with
  | [] => .done s
  | p :: rest =>
    let t := { s with inputs := rest }
    if p.rstN then
      match rspPort p t, p.cmd with
      | some r, _ => if p.rspReady then .done (takeResponse r t) else .done t
      | none, some w => if cmdReady p t then .run w t else .done t
      | none, none => .done t
    else .done (pinReset t)

end Sys2Proof.Machine
end

