-- ==== Sys2Proof/Machine/Step.lean ====
section
/-! DEFINITION. One step: one rising edge of the interface, and the accepted command with it (R11, R81). -/

namespace Sys2Proof.Machine

/-- Running an accepted word: its command, or the answer to an illegal word (R75, R77). -/
def runWord (w : Word) (s : State) : Host.Outcome State Fault Refusal :=
  match decode w with
  | .ok i => exec i s
  | .error _ => illegalWord s

/-- One step. It faults nowhere and refuses nowhere. -/
def step (s : State) : Host.Outcome State Fault Refusal :=
  match portAction s with
  | .done t => .next t
  | .run w t => runWord w t

/-- `s` with the host offering the word `w` at the next edge, no response being in its way. The block runs no stored
program (R22): the host issues every command (log entry 1). -/
def State.withFetchWord (s : State) (nbits w : Nat) : State :=
  { s with
    rsp := none
    inputs := { rstN := true, cmd := some (BitVec.ofNat 16 (w % 2 ^ nbits)), rspReady := true } :: s.inputs }

end Sys2Proof.Machine
end

