-- ==== Sys2Proof/Machine/Assembler.lean ====
section
/-! DEFINITION. The assembler: commands and pseudo-instructions to command words (30_encoding.md R78, R79). -/

namespace Sys2Proof.Machine

/-- The operand as the 8 bits of `d`. -/
def operandByte (o : Operand) : Byte := BitVec.ofNat 8 o.value

/-- `READ SEL, i` by its selector's name (R74, R78). -/
def readNamed (sel : String) (i : Byte) : Option Instr :=
  if sel = "STAT" then some (.readStat i)
  else if sel = "REFL" then some (.readRefl i)
  else if sel = "SCR1" then some (.readScr1 i)
  else if sel = "SCR2" then some (.readScr2 i)
  else if sel = "SCR3" then some (.readScr3 i)
  else if sel = "NOTCH" then some (.readNotch i)
  else if sel = "START" then some (.readStart i)
  else if sel = "CMSG" then some (.readCmsg i)
  else if sel = "PLAIN" then some (.readPlain i)
  else if sel = "REGS" then some (.readRegs i)
  else none

/-- `PUSH_PACKED p`: the eight bits of `p` as raw bytes, bit 7 first (R79). -/
def pushPacked (p : Byte) : List Instr := [7, 6, 5, 4, 3, 2, 1, 0].map fun n => .extByte ((p >>> n) &&& 1)

/-- The commands a line stands for (R78, R79). -/
def expand : AsmLine → List Instr
  | .nop => [.nop]
  | .extByte d => [.extByte (operandByte d)]
  | .extEnd => [.extEnd]
  | .load => [.load]
  | .cipher s => [.cipher (operandByte s)]
  | .decodeMsg => [.decodeMsg]
  | .read sel i => (readNamed sel (operandByte i)).toList
  | .status => [.status]
  | .softReset => [.softReset]
  | .feedRaw raws => raws.map fun r => .extByte (operandByte r)
  | .pushPacked bytes => bytes.flatMap fun p => pushPacked (operandByte p)
  | .pushImage header payload => (header ++ payload).flatMap fun p => pushPacked (operandByte p)
  | .rep n cmd => (List.replicate n (expand cmd)).flatten

/-- The words of a line; an assembly error produces none (R78). -/
def assemble (line : AsmLine) : Option (List Word) :=
  if line.WellFormed then some ((expand line).map encode) else none

end Sys2Proof.Machine
end

