-- ==== Sys2Proof/Safety.lean ====
section
/-! DEFINITION. The terms in which claims are stated: the invariant of the state, what a host can see of it, runs of
commands, and relations on wheels that restate 00_scope.md R8 and 42_rotor_engine.md R151 to R161 without the model's own
functions. -/

namespace Sys2Proof.Machine

/-! ### Runs of commands -/

/-- The commands of a list, one after the other (R11, R60): the responses in order and the last state. `none` where a
command stops or gives no response. -/
def runCommands : List Instr → State → Option (List Word × State)
  | [], s => some ([], s)
  | i :: is, s =>
    match exec i s with
    | .next t =>
      match t.rsp, runCommands is t with
      | some r, some (rs, u) => some (r :: rs, u)
      | _, _ => none
    | .fault _ => none
    | .refused _ => none

/-- The response `ok(v)` (R10): `0x4000 OR v`. -/
def okWord (v : Byte) : Word := 0x4000#16 ||| v.setWidth 16

/-- The data of the responses that carry a result (R71 bit `dv`), in order. -/
def resultBytes (rs : List Word) : List Byte :=
  rs.filterMap fun r => if r.getLsbD 14 then some (r.setWidth 8) else none

/-- The source's `extract` on a whole sequence (R109): one byte for each eight raw bytes, first bit highest, an
incomplete tail dropped. -/
def extract : List Byte → List Byte
  | b0 :: b1 :: b2 :: b3 :: b4 :: b5 :: b6 :: b7 :: rest =>
    BitVec.ofNat 8 ((b0.toNat % 2) * 128 + (b1.toNat % 2) * 64 + (b2.toNat % 2) * 32 + (b3.toNat % 2) * 16
      + (b4.toNat % 2) * 8 + (b5.toNat % 2) * 4 + (b6.toNat % 2) * 2 + b7.toNat % 2) :: extract rest
  | _ => []

/-- The packer is at a group boundary (R53). -/
abbrev AtGroupBoundary (s : State) : Prop := s.extAcc = 0 ∧ s.extCnt = 0

/-- `s` after an error that is not a failed lookup (R223 site 0, R224); `w` is its response word. -/
abbrev Raised (s : State) (e : ErrCode) (w : Word) : State :=
  { s with errCode := e, faultSite := .noLookup, faultSym := 0, engState := .faulted, rsp := some w }

/-! ### Wheels -/

/-- `i` is the least index at which `w` holds `x` (R8). -/
abbrev FirstAt (w : Wheel) (x : Symbol) (i : Fin 94) : Prop := w[i] = x ∧ ∀ j : Fin 94, j < i → w[j] ≠ x

/-- `w` holds `x` nowhere. -/
abbrev Absent (w : Wheel) (x : Symbol) : Prop := ∀ j : Fin 94, w[j] ≠ x

/-- `new` is `old` rotated left by `i` (R8). -/
abbrev Rotated (old new : Wheel) (i : Nat) : Prop :=
  ∀ j : Fin 94, new[j] = old[(j.val + i) % 94]'(Nat.mod_lt _ (by decide))

/-- `new` is `old` after the default step (R152). -/
abbrev StepsTo (old new : Wheel) : Prop := ∃ m : Fin 94, FirstAt old old[93] m ∧ Rotated old new m

/-- `w1`, `w2`, `w3` are the scrambled wheels after the stepping of one iteration from `s` (R158, R159). -/
abbrev Stepped (s : State) (w1 w2 w3 : Wheel) : Prop :=
  StepsTo s.scr1 w1 ∧ (if s.scr1[0] = s.notch1 then StepsTo s.scr2 w2 else w2 = s.scr2) ∧
    (if s.scr2[0] = s.notch2 then StepsTo s.scr3 w3 else w3 = s.scr3)

/-- Looking `x` up in `w` and reading the same index of `v` gives `y` (R155, R156). -/
abbrev Maps (w v : Wheel) (x y : Symbol) : Prop := ∃ i : Fin 94, FirstAt w x i ∧ y = v[i]

/-- `x` reflects to `y` (R157). -/
abbrev Reflects (refl : Wheel) (x y : Symbol) : Prop :=
  ∃ i j : Fin 94, FirstAt refl x i ∧ y = refl[j] ∧
    (i.val % 2 = 0 → j.val = i.val + 1) ∧ (i.val % 2 = 1 → j.val + 1 = i.val)

/-- The seven lookups of one iteration take `x` to `y` (R161, steps 2 to 4). -/
def Yields (stat refl w1 w2 w3 : Wheel) (x y : Symbol) : Prop :=
  ∃ a b c d e f, Maps stat w1 x a ∧ Maps stat w2 a b ∧ Maps stat w3 b c ∧ Reflects refl c d ∧
    Maps w3 stat d e ∧ Maps w2 stat e f ∧ Maps w1 stat f y

/-- The first of the seven lookups that fails, with the symbol looked for (R150, R161, R223). -/
inductive Misses (stat refl w1 w2 w3 : Wheel) (x : Symbol) : FaultSite → Symbol → Prop
  | out1 : Absent stat x → Misses stat refl w1 w2 w3 x (.outbound .r1) x
  | out2 {a} : Maps stat w1 x a → Absent stat a → Misses stat refl w1 w2 w3 x (.outbound .r2) a
  | out3 {a b} : Maps stat w1 x a → Maps stat w2 a b → Absent stat b → Misses stat refl w1 w2 w3 x (.outbound .r3) b
  | refl {a b c} : Maps stat w1 x a → Maps stat w2 a b → Maps stat w3 b c → Absent refl c →
      Misses stat refl w1 w2 w3 x .reflector c
  | in3 {a b c d} : Maps stat w1 x a → Maps stat w2 a b → Maps stat w3 b c → Reflects refl c d → Absent w3 d →
      Misses stat refl w1 w2 w3 x (.inbound .r3) d
  | in2 {a b c d e} : Maps stat w1 x a → Maps stat w2 a b → Maps stat w3 b c → Reflects refl c d → Maps w3 stat d e →
      Absent w2 e → Misses stat refl w1 w2 w3 x (.inbound .r2) e
  | in1 {a b c d e f} : Maps stat w1 x a → Maps stat w2 a b → Maps stat w3 b c → Reflects refl c d → Maps w3 stat d e →
      Maps w2 stat e f → Absent w1 f → Misses stat refl w1 w2 w3 x (.inbound .r1) f

/-- `w` is a permutation of the alphabet (R41). -/
abbrev IsAlphabetWheel (w : Wheel) : Prop := w.toList.Perm Config.alphabet

/-- Every wheel and the reflector keep the source's invariant (R41). -/
abbrev ValidWheels (s : State) : Prop :=
  IsAlphabetWheel s.stat ∧ IsAlphabetWheel s.refl ∧ IsAlphabetWheel s.scr1 ∧ IsAlphabetWheel s.scr2 ∧
    IsAlphabetWheel s.scr3

/-! ### The capture buffer as LOAD sees it -/

/-- The start symbol at `payload[b]` first occurs at entry `i` of the scrambled field that begins at `payload[a]`
(R54, R133). -/
abbrev StartsAt (s : State) (a b : Nat) (i : Fin 94) : Prop :=
  s.payload.read (a + i) = s.payload.read b ∧ ∀ j : Fin 94, j < i → s.payload.read (a + j) ≠ s.payload.read b

/-- The start symbol at `payload[b]` does not occur in the scrambled field that begins at `payload[a]` (R134). -/
abbrev StartMissing (s : State) (a b : Nat) : Prop := ∀ j : Fin 94, s.payload.read (a + j) ≠ s.payload.read b

/-! ### What two states share -/

/-- The engine registers that LOAD builds agree (R135). -/
structure SameEngine (s t : State) : Prop where
  stat : s.stat = t.stat
  refl : s.refl = t.refl
  scr1 : s.scr1 = t.scr1
  scr2 : s.scr2 = t.scr2
  scr3 : s.scr3 = t.scr3
  notch1 : s.notch1 = t.notch1
  notch2 : s.notch2 = t.notch2
  start1 : s.start1 = t.start1
  start2 : s.start2 = t.start2
  start3 : s.start3 = t.start3
  cmsg : s.cmsg = t.cmsg
  outCount : s.outCount = t.outCount
  engState : s.engState = t.engState

/-- The fields that R261 gives a reset value, and the interface, agree; of the unspecified arrays, only what has been
written since reset and can be read (R262). The model's count of resets is left out. -/
structure SameToHost (s t : State) : Prop where
  extAcc : s.extAcc = t.extAcc
  extCnt : s.extCnt = t.extCnt
  pktCount : s.pktCount = t.pktCount
  engState : s.engState = t.engState
  outCount : s.outCount = t.outCount
  errCode : s.errCode = t.errCode
  faultSite : s.faultSite = t.faultSite
  faultSym : s.faultSym = t.faultSym
  rsp : s.rsp = t.rsp
  inputs : s.inputs = t.inputs
  taken : s.taken = t.taken
  captured : ∀ a, a < 514 → a + 4 < s.pktCount.toNat → s.payload.read a = t.payload.read a
  engine : s.engState = .ready → SameEngine s t
  decoded : s.engState = .ready → ∀ k : Fin 39, k.val < s.outCount.toNat → s.plain[k] = t.plain[k]

/-- The values that R261 states for the reset state. -/
structure ResetValues (s : State) : Prop where
  extAcc : s.extAcc = 0
  extCnt : s.extCnt = 0
  pktCount : s.pktCount = 0
  engState : s.engState = .idle
  outCount : s.outCount = 0
  errCode : s.errCode = .noError
  faultSite : s.faultSite = .noLookup
  faultSym : s.faultSym = 0

/-! ### The invariant -/

/-- What every step keeps. -/
structure State.Inv (s : State) : Prop where
  /-- The capture buffer is canonical (log entry 4). -/
  payload_wf : s.payload.wf = true
  /-- Only packed bytes counted since reset have been captured (R55, R104). -/
  payload_below : ∀ c ∈ s.payload, c.1 + 4 < s.pktCount.toNat
  /-- `pkt_count` saturates at 518 (R25). -/
  pktCount_le : s.pktCount.toNat ≤ 518
  /-- `out_count` is 0 to 39 (R34). -/
  outCount_le : s.outCount.toNat ≤ 39
  /-- Bits of `ext_acc` not yet filled are 0 (R23). -/
  extAcc_unfilled : ∀ j, j + s.extCnt.toNat < 8 → s.extAcc.getLsbD j = false
  /-- READY needs a successful LOAD, which needs a full capture (R27, R131). -/
  ready_full : s.engState = .ready → s.pktCount.toNat = 518
  /-- Nothing is decoded before the first LOAD (R34). -/
  idle_empty : s.engState = .idle → s.outCount = 0
  /-- FAULTED is the state in which an error is recorded (R27, R35). -/
  faulted_iff : s.engState = .faulted ↔ s.errCode ≠ .noError
  /-- A fault site is recorded for CONSISTENCY and for no other error (R223). -/
  site_iff : s.faultSite ≠ .noLookup ↔ s.errCode = .consistency
  /-- The fault symbol is 0 where no lookup failed (R35, R223). -/
  sym_zero : s.faultSite = .noLookup → s.faultSym = 0

end Sys2Proof.Machine
end

