-- ==== Sys2Proof/Certificates/Slice0/Obligations.lean ====
section
/-! DEFINITION. The statements for the provers. Each docstring names the rule of spec/ that it formalises. -/

open Sys2Proof Sys2Proof.Machine

/-! ### Encoding -/

/-- R73, R74: words written out from the opcode map decode to their commands. -/
def Obligations.TableWordsDecodeToTheirCommands : Prop :=
  decode 0x0000#16 = .ok .nop ∧ decode 0x10FE#16 = .ok (.extByte 0xFE) ∧ decode 0x2000#16 = .ok .extEnd ∧
  decode 0x3000#16 = .ok .load ∧ decode 0x4041#16 = .ok (.cipher 0x41) ∧ decode 0x5000#16 = .ok .decodeMsg ∧
  decode 0x625D#16 = .ok (.readScr1 0x5D) ∧ decode 0x6907#16 = .ok (.readRegs 7) ∧ decode 0x7000#16 = .ok .status ∧
  decode 0xF000#16 = .ok .softReset

/-- R77 with R73 and R74: the decoder reads back every encoded command, its operand included. -/
def Obligations.EncodeThenDecodeGivesTheCommand : Prop :=
  ∀ i : Instr, decode (encode i) = .ok i

/-- R77: no word decodes to two commands, and none but its own word decodes to a command. -/
def Obligations.DecodeThenEncodeGivesTheWord : Prop :=
  ∀ (w : Word) (i : Instr), decode w = .ok i → encode i = w

/-- R75: the illegal words are exactly the listed ranges. -/
def Obligations.IllegalWordsAreTheListedRanges : Prop :=
  ∀ w : Word, (∃ e, decode w = .error e) ↔
    (0x0001 ≤ w.toNat ∧ w.toNat ≤ 0x0FFF) ∨ (0x1100 ≤ w.toNat ∧ w.toNat ≤ 0x1FFF) ∨
    (0x2001 ≤ w.toNat ∧ w.toNat ≤ 0x2FFF) ∨ (0x3001 ≤ w.toNat ∧ w.toNat ≤ 0x3FFF) ∨
    (0x4100 ≤ w.toNat ∧ w.toNat ≤ 0x4FFF) ∨ (0x5001 ≤ w.toNat ∧ w.toNat ≤ 0x5FFF) ∨
    (0x6A00 ≤ w.toNat ∧ w.toNat ≤ 0x6FFF) ∨ (0x7001 ≤ w.toNat ∧ w.toNat ≤ 0x7FFF) ∨
    (0x8000 ≤ w.toNat ∧ w.toNat ≤ 0xEFFF) ∨ 0xF001 ≤ w.toNat

/-- R76: the reserved opcodes and the reserved READ selectors are illegal, not no-ops: outside FAULTED they raise
ILLEGAL_CMD. -/
def Obligations.ReservedEncodingsRaiseIllegalCmd : Prop :=
  ∀ (w : Word) (s : State), s.engState ≠ .faulted →
    ((8 ≤ (fieldsOf w).op.toNat ∧ (fieldsOf w).op.toNat ≤ 14) ∨
      ((fieldsOf w).op.toNat = 6 ∧ 10 ≤ (fieldsOf w).sel.toNat)) →
    (∃ e, decode w = .error e) ∧ runWord w s = .next (Raised s .illegalCmd 0x8003)

/-- R75: an illegal word raises ILLEGAL_CMD outside FAULTED and is answered without effect in FAULTED. -/
def Obligations.IllegalWordRaisesOrIsAnswered : Prop :=
  ∀ (w : Word) (s : State), (∃ e, decode w = .error e) →
    (s.engState ≠ .faulted → runWord w s = .next (Raised s .illegalCmd 0x8003)) ∧
    (s.engState = .faulted →
      runWord w s = .next { s with rsp := some (0x8000#16 ||| s.errCode.bits.setWidth 16) })

/-- R78: the assembler's words, and the assembly errors for which no word is produced. -/
def Obligations.AssemblerProducesTheTableWords : Prop :=
  assemble .nop = some [0x0000#16] ∧ assemble .extEnd = some [0x2000#16] ∧ assemble .load = some [0x3000#16] ∧
  assemble .decodeMsg = some [0x5000#16] ∧ assemble .status = some [0x7000#16] ∧
  assemble .softReset = some [0xF000#16] ∧
  ∀ (n : Nat) (sel : String),
    (n < 256 → assemble (.extByte (.num n)) = some [0x1000#16 ||| BitVec.ofNat 16 n] ∧
      assemble (.cipher (.num n)) = some [0x4000#16 ||| BitVec.ofNat 16 n] ∧
      ∀ k : Fin 10, assemble (.read (selectorNames[k]'(by exact k.isLt)) (.num n)) =
        some [0x6000#16 ||| (BitVec.ofNat 16 k <<< 8) ||| BitVec.ofNat 16 n]) ∧
    (256 ≤ n → assemble (.extByte (.num n)) = none ∧ assemble (.cipher (.num n)) = none ∧
      assemble (.read sel (.num n)) = none) ∧
    (sel ∉ selectorNames → assemble (.read sel (.num n)) = none)

/-- R79: PUSH_PACKED assembles to the eight words of its bits, high bit first, and from a group boundary those commands
make the packer emit exactly its byte. -/
def Obligations.PushPackedEmitsItsByte : Prop :=
  ∀ (s : State) (p : Byte), s.engState ≠ .faulted → AtGroupBoundary s →
    assemble (.pushPacked [.num p.toNat]) =
      some ([7, 6, 5, 4, 3, 2, 1, 0].map fun j => if p.getLsbD j then 0x1001#16 else 0x1000#16) ∧
    ∃ t, runCommands (expand (.pushPacked [.num p.toNat])) s = some (List.replicate 7 0x0000#16 ++ [okWord p], t) ∧
      AtGroupBoundary t

/-! ### Responses -/

/-- R71: every word gets one response word: bits [13:8] are 0, `err` and `dv` never come together, `err` = 1 carries the
recorded error code, and neither carries 0x00. A word answered with `err` = 0 records no new error. -/
def Obligations.EveryWordGetsOneResponse : Prop :=
  ∀ (w : Word) (s : State), ∃ t r, runWord w s = .next t ∧ t.rsp = some r ∧ r.extractLsb' 8 6 = 0 ∧
    ¬(r.getLsbD 15 = true ∧ r.getLsbD 14 = true) ∧
    (r.getLsbD 15 = true → t.engState = .faulted ∧ r.extractLsb' 0 8 = t.errCode.bits.setWidth 8) ∧
    (r.getLsbD 15 = false → t.errCode = s.errCode ∨ (decode w = .ok .softReset ∧ t.errCode = .noError)) ∧
    (r.getLsbD 15 = false → r.getLsbD 14 = false → r.extractLsb' 0 8 = 0)

/-! ### Bit extractor -/

/-- R101 and R105, a group not yet complete: the selected bit goes to bit 7 − ext_cnt of the accumulator, the answer is
ok(), and nothing else changes. -/
def Obligations.ExtByteHoldsTheBit : Prop :=
  ∀ (s : State) (d : Byte), s.engState ≠ .faulted → s.extCnt.toNat < 7 →
    ∃ acc : Byte,
      exec (.extByte d) s = .next { s with extAcc := acc, extCnt := s.extCnt + 1, rsp := some 0x0000 } ∧
      ∀ j < 8, acc.getLsbD j =
        (s.extAcc.getLsbD j || (decide (j + s.extCnt.toNat = 7) && d.getLsbD 0))

/-- R104 with R103 and R105: the eighth bit completes the group. The byte is answered, the packer is cleared, and the byte
is dropped (0 to 3), captured at `pkt_count` − 4 (4 to 517) or ignored (518 on); every other entry reads as before. That the buffer stays
canonical is the model's choice, log entry 4. -/
def Obligations.ExtByteCompletesAndCaptures : Prop :=
  ∀ (s : State) (d : Byte), s.engState ≠ .faulted → s.extCnt.toNat = 7 → s.payload.wf = true →
    ∃ (p : Byte) (n : BitVec 10) (m : Memory),
      exec (.extByte d) s =
        .next { s with extAcc := 0, extCnt := 0, pktCount := n, payload := m, rsp := some (okWord p) } ∧
      (∀ j < 8, p.getLsbD j = (s.extAcc.getLsbD j || (decide (j = 0) && d.getLsbD 0))) ∧
      n.toNat = (if s.pktCount.toNat < 518 then s.pktCount.toNat + 1 else s.pktCount.toNat) ∧
      m.wf = true ∧
      ∀ a, m.read a =
        if 4 ≤ s.pktCount.toNat ∧ s.pktCount.toNat < 518 ∧ a + 4 = s.pktCount.toNat then p else s.payload.read a

/-- R100: only bit 0 of the raw byte has an effect. -/
def Obligations.ExtByteUsesBitZeroOnly : Prop :=
  ∀ (s : State) (d e : Byte), d.getLsbD 0 = e.getLsbD 0 → exec (.extByte d) s = exec (.extByte e) s

/-- R102: the packed-byte law, for the eight EXT_BYTE of one group. -/
def Obligations.EightRawBytesPackOneByte : Prop :=
  ∀ (s : State) (b0 b1 b2 b3 b4 b5 b6 b7 : Byte), s.engState ≠ .faulted → AtGroupBoundary s →
    ∃ p t, runCommands ([b0, b1, b2, b3, b4, b5, b6, b7].map .extByte) s =
        some (List.replicate 7 0x0000#16 ++ [okWord p], t) ∧
      AtGroupBoundary t ∧
      p.toNat = (b0.toNat % 2) * 128 + (b1.toNat % 2) * 64 + (b2.toNat % 2) * 32 + (b3.toNat % 2) * 16 +
        (b4.toNat % 2) * 8 + (b5.toNat % 2) * 4 + (b6.toNat % 2) * 2 + (b7.toNat % 2) * 1

/-- R109: from a group boundary, the packed bytes returned are the source's `extract` of the raw bytes: floor(n/8) bytes,
the last n mod 8 bits held in the accumulator, the first of them in bit 7. -/
def Obligations.StreamedExtractorIsTheSourceFunction : Prop :=
  ∀ (raws : List Byte) (s : State), s.engState ≠ .faulted → AtGroupBoundary s →
    ∃ rs t, runCommands (raws.map .extByte) s = some (rs, t) ∧ resultBytes rs = extract raws ∧
      (extract raws).length = raws.length / 8 ∧
      (∀ k, k < raws.length / 8 → ∀ j, j < 8 →
        ((extract raws).getD k 0).getLsbD (7 - j) = (raws.getD (8 * k + j) 0).getLsbD 0) ∧
      t.extCnt.toNat = raws.length % 8 ∧
      ∀ j, j < raws.length % 8 →
        t.extAcc.getLsbD (7 - j) = (raws.getD (8 * (raws.length / 8) + j) 0).getLsbD 0

/-- R57 with R51, R54 and R55: after a reset, file byte 54 + 8·(4 + i) + j carries bit 7 − j of `payload[i]`. -/
def Obligations.CaptureHoldsTheFileBits : Prop :=
  ∀ (file : List Byte) (s : State), s.engState ≠ .faulted → AtGroupBoundary s → s.pktCount = 0 → s.payload.wf = true →
    54 + 4144 ≤ file.length →
    ∃ rs t, runCommands ((file.drop 54).map .extByte) s = some (rs, t) ∧ t.pktCount = 518 ∧ t.engState = s.engState ∧
      ∀ i j, i < 514 → j < 8 →
        (t.payload.read i).getLsbD (7 - j) = (file.getD (54 + 8 * (4 + i) + j) 0).getLsbD 0

/-- R106: EXT_END, the word 0x2000 only, drops a partial group, answers ok() and changes nothing else; in FAULTED it is
answered with the recorded error; 0x2001 to 0x2FFF are illegal. -/
def Obligations.ExtEndDropsThePartialGroup : Prop :=
  (∀ s : State,
    (s.engState ≠ .faulted → exec .extEnd s = .next { s with extAcc := 0, extCnt := 0, rsp := some 0x0000 }) ∧
    (s.engState = .faulted → exec .extEnd s = .next { s with rsp := some (0x8000#16 ||| s.errCode.bits.setWidth 16) })) ∧
  ∀ w : Word, (decode w = .ok .extEnd ↔ w = 0x2000#16) ∧
    (0x2001 ≤ w.toNat → w.toNat ≤ 0x2FFF → ∃ e, decode w = .error e)

/-- R110: EXT_BYTE and EXT_END write only the extractor's registers, the capture buffer and the response, and what they
write there does not depend on the engine state (outside FAULTED). -/
def Obligations.ExtractorIsIsolatedFromTheEngine : Prop :=
  ∀ (c : Instr), (c = .extEnd ∨ ∃ d, c = .extByte d) →
    (∀ s t : State, exec c s = .next t →
      t = { s with extAcc := t.extAcc, extCnt := t.extCnt, pktCount := t.pktCount, payload := t.payload,
                   rsp := t.rsp }) ∧
    (∀ s s' t t' : State, s.engState ≠ .faulted → s'.engState ≠ .faulted → s.extAcc = s'.extAcc →
      s.extCnt = s'.extCnt → s.pktCount = s'.pktCount → s.payload = s'.payload →
      exec c s = .next t → exec c s' = .next t' →
      t.extAcc = t'.extAcc ∧ t.extCnt = t'.extCnt ∧ t.pktCount = t'.pktCount ∧ t.payload = t'.payload ∧
        t.rsp = t'.rsp)

/-! ### LOAD -/

/-- R131: LOAD with fewer than 514 packed bytes after the header skip raises MALFORMED and writes nothing else; with 514
or more it does not answer MALFORMED. -/
def Obligations.LoadOfAShortCaptureRaisesMalformed : Prop :=
  ∀ s : State, s.engState ≠ .faulted →
    (s.pktCount.toNat < 518 → exec .load s = .next (Raised s .malformed 0x8001)) ∧
    (518 ≤ s.pktCount.toNat → ∃ t, exec .load s = .next t ∧ t.rsp ≠ some 0x8001)

/-- R130, R132, R133 and the field map R54: a LOAD whose start symbols occur copies every field, rotates each scrambled
wheel to its start symbol, empties the output buffer, enters READY, answers ok() and changes nothing else. -/
def Obligations.LoadBuildsTheEngine : Prop :=
  ∀ (s : State) (i1 i2 i3 : Fin 94), s.engState ≠ .faulted → 518 ≤ s.pktCount.toNat →
    StartsAt s 188 472 i1 → StartsAt s 282 473 i2 → StartsAt s 376 474 i3 →
    ∃ t, exec .load s = .next t ∧
      (∀ j : Fin 94, t.stat[j] = s.payload.read j ∧ t.refl[j] = s.payload.read (94 + j) ∧
        t.scr1[j] = s.payload.read (188 + (j.val + i1.val) % 94) ∧
        t.scr2[j] = s.payload.read (282 + (j.val + i2.val) % 94) ∧
        t.scr3[j] = s.payload.read (376 + (j.val + i3.val) % 94)) ∧
      (∀ k : Fin 39, t.cmsg[k] = s.payload.read (475 + k)) ∧
      t = { s with
        stat := t.stat, refl := t.refl, scr1 := t.scr1, scr2 := t.scr2, scr3 := t.scr3, cmsg := t.cmsg,
        notch1 := s.payload.read 470, notch2 := s.payload.read 471, start1 := s.payload.read 472,
        start2 := s.payload.read 473, start3 := s.payload.read 474, outCount := 0, engState := .ready,
        rsp := some 0x0000 }

/-- R134 with R133: the first rotor, in the order 1, 2, 3, whose start symbol is absent makes LOAD raise CONSISTENCY with
its number as the fault site and its start symbol as the fault symbol; the rotors after it are not stepped. That their wheels keep the copied fields in
FAULTED (R136, R225) is log entry 10. -/
def Obligations.LoadWithoutAStartSymbolRaisesConsistency : Prop :=
  ∀ s : State, s.engState ≠ .faulted → 518 ≤ s.pktCount.toNat →
    ∃ t, exec .load s = .next t ∧
      (StartMissing s 188 472 → t.faultSite = .start .r1 ∧ t.faultSym = s.payload.read 472 ∧
        (∀ j : Fin 94, t.scr2[j] = s.payload.read (282 + j)) ∧ ∀ j : Fin 94, t.scr3[j] = s.payload.read (376 + j)) ∧
      (¬StartMissing s 188 472 → StartMissing s 282 473 →
        t.faultSite = .start .r2 ∧ t.faultSym = s.payload.read 473 ∧
        ∀ j : Fin 94, t.scr3[j] = s.payload.read (376 + j)) ∧
      (¬StartMissing s 188 472 → ¬StartMissing s 282 473 → StartMissing s 376 474 →
        t.faultSite = .start .r3 ∧ t.faultSym = s.payload.read 474) ∧
      (StartMissing s 188 472 ∨ StartMissing s 282 473 ∨ StartMissing s 376 474 →
        t.errCode = .consistency ∧ t.engState = .faulted ∧ t.rsp = some 0x8002 ∧ t.outCount = s.outCount ∧
        t.extAcc = s.extAcc ∧ t.extCnt = s.extCnt ∧ t.pktCount = s.pktCount ∧ t.payload = s.payload)

/-- R135: once the capture is full, LOAD builds the same engine however many commands other than a reset run before
it. -/
def Obligations.ReloadRebuildsTheSameEngine : Prop :=
  ∀ (is : List Instr) (s u : State) (rs : List Word), s.engState ≠ .faulted → 518 ≤ s.pktCount.toNat →
    .softReset ∉ is → runCommands is s = some (rs, u) → u.engState ≠ .faulted →
    ∃ s' u', exec .load s = .next s' ∧ exec .load u = .next u' ∧ s'.rsp = u'.rsp ∧ s'.engState = u'.engState ∧
      (s'.engState = .ready → SameEngine s' u')

/-! ### Rotors -/

/-- R152: the default step rotates left by the least index of the wheel's last symbol. -/
def Obligations.DefaultStepGoesToTheLastEntry : Prop :=
  ∀ w : Wheel, StepsTo w (stepDefault w) ∧ (stepDefault w)[0] = w[93]

/-- R153: where the last symbol occurs at no other index, the step is a rotation right by one. -/
def Obligations.StepWithoutRepeatIsARightRotation : Prop :=
  ∀ w : Wheel, (∀ j : Fin 94, j.val < 93 → w[j] ≠ w[93]) →
    (stepDefault w)[0] = w[93] ∧ ∀ j, (h : j < 93) → (stepDefault w)[j + 1] = w[j]

/-- R154: where the last symbol also occurs earlier, the step rotates left by its least index `m`; with `m` = 0 the wheel
does not change. -/
def Obligations.StepWithARepeatRotatesToTheFirstCopy : Prop :=
  ∀ (w : Wheel) (m : Fin 94), m.val < 93 → FirstAt w w[93] m →
    Rotated w (stepDefault w) m ∧ (m.val = 0 → stepDefault w = w)

/-- R165: one rotor's inbound code undoes its outbound code. -/
def Obligations.OneRotorRoundTrip : Prop :=
  ∀ (s : State) (r : Rotor) (x : Symbol), s.stat.toList.Nodup → (s.scr r).toList.Perm s.stat.toList →
    x ∈ s.stat.toList → ∃ y, outbound s r x = .ok y ∧ inbound s r y = .ok x

/-- R166: reflection is an involution where the reflector's entries are distinct. -/
def Obligations.ReflectionIsAnInvolution : Prop :=
  ∀ (s : State) (x : Symbol), s.refl.toList.Nodup → x ∈ s.refl.toList →
    ∃ y, reflect s x = .ok y ∧ reflect s y = .ok x

/-- R28, R29, R30, R42: no command but LOAD and a reset writes the ROMs, the notches, the starts or the ciphertext, and
each scrambled wheel keeps its multiset of entries. -/
def Obligations.OnlyLoadAndResetChangeTheWheelContents : Prop :=
  ∀ (w : Word) (s t : State), decode w ≠ .ok .load → decode w ≠ .ok .softReset → runWord w s = .next t →
    t.stat = s.stat ∧ t.refl = s.refl ∧ t.notch1 = s.notch1 ∧ t.notch2 = s.notch2 ∧ t.start1 = s.start1 ∧
    t.start2 = s.start2 ∧ t.start3 = s.start3 ∧ t.cmsg = s.cmsg ∧ t.scr1.toList.Perm s.scr1.toList ∧
    t.scr2.toList.Perm s.scr2.toList ∧ t.scr3.toList.Perm s.scr3.toList

/-! ### CIPHER and DECODE_MSG -/

/-- R162 with R155 to R161: in READY, CIPHER steps the wheels with the carries sampled before the stepping, answers the
symbol that the seven lookups on the stepped wheels give, and changes nothing else. -/
def Obligations.CipherAnswersTheSubstitutedSymbol : Prop :=
  ∀ (s : State) (d y : Symbol) (w1 w2 w3 : Wheel), s.engState = .ready → Stepped s w1 w2 w3 →
    Yields s.stat s.refl w1 w2 w3 d y →
    exec (.cipher d) s = .next { s with scr1 := w1, scr2 := w2, scr3 := w3, rsp := some (okWord y) }

/-- R150 with R223 and R225: the first lookup of CIPHER that fails raises CONSISTENCY with its site and the symbol looked
for; the wheels have stepped (log entry 10); nothing else changes. -/
def Obligations.CipherLookupFailureRaisesConsistency : Prop :=
  ∀ (s : State) (d x : Symbol) (w1 w2 w3 : Wheel) (site : FaultSite), s.engState = .ready → Stepped s w1 w2 w3 →
    Misses s.stat s.refl w1 w2 w3 d site x →
    exec (.cipher d) s = .next { s with
      scr1 := w1, scr2 := w2, scr3 := w3, errCode := .consistency, faultSite := site, faultSym := x,
      engState := .faulted, rsp := some 0x8002 }

/-- R167: with valid wheels and an input symbol of the alphabet, CIPHER is an involution without fixed point: from the
same state, the output gives the input back. -/
def Obligations.CipherIsReciprocal : Prop :=
  ∀ (s : State) (x : Symbol), s.engState = .ready → ValidWheels s → x ∈ Config.alphabet →
    ∃ (y : Symbol) (t : State), y ∈ Config.alphabet ∧ y ≠ x ∧ t.engState = .ready ∧
      exec (.cipher x) s = .next { t with rsp := some (okWord y) } ∧
      exec (.cipher y) s = .next { t with rsp := some (okWord x) }

/-- R163: DECODE_MSG is CIPHER on `cmsg[0]` to `cmsg[38]` in order, with the answers stored in `plain`; where one of them
fails (R164), DECODE_MSG fails with the same record and `out_count` counts the answers before it. That the wheels
and those answers stay in FAULTED (R225) is log entry 10. -/
def Obligations.DecodeMsgIsThirtyNineCiphers : Prop :=
  ∀ s : State, s.engState = .ready →
    ∃ rs t u, runCommands (s.cmsg.toList.map .cipher) s = some (rs, t) ∧ exec .decodeMsg s = .next u ∧
      (t.engState = .ready →
        u = { t with plain := u.plain, outCount := 39, rsp := some 0x0000 } ∧ u.plain.toList = resultBytes rs) ∧
      (t.engState ≠ .ready →
        t.engState = .faulted ∧ (resultBytes rs).length < 39 ∧
        u = { t with plain := u.plain, outCount := BitVec.ofNat 6 (resultBytes rs).length, rsp := some 0x8002 } ∧
        u.plain.toList.take (resultBytes rs).length = resultBytes rs)

/-- R163 with R150: with valid wheels and a ciphertext in the alphabet, DECODE_MSG completes: it writes the scrambled
wheels, 39 symbols of the alphabet, each different from its ciphertext symbol, and `out_count`, and nothing else. -/
def Obligations.DecodeMsgOfAValidMessageCompletes : Prop :=
  ∀ s : State, s.engState = .ready → ValidWheels s → (∀ k : Fin 39, s.cmsg[k] ∈ Config.alphabet) →
    ∃ t, exec .decodeMsg s = .next t ∧
      (∀ k : Fin 39, t.plain[k] ∈ Config.alphabet ∧ t.plain[k] ≠ s.cmsg[k]) ∧
      t = { s with
        scr1 := t.scr1, scr2 := t.scr2, scr3 := t.scr3, plain := t.plain, outCount := 39, rsp := some 0x0000 }

/-- R167 for the whole message: decoding what DECODE_MSG produced, from the same rotor state, gives the ciphertext
back; both runs answer ok() with `out_count` 39. -/
def Obligations.DecodingTheDecodedMessageGivesItBack : Prop :=
  ∀ s : State, s.engState = .ready → ValidWheels s → (∀ k : Fin 39, s.cmsg[k] ∈ Config.alphabet) →
    ∃ t u, exec .decodeMsg s = .next t ∧ exec .decodeMsg { s with cmsg := t.plain } = .next u ∧ u.plain = s.cmsg ∧
      t.rsp = some 0x0000 ∧ t.outCount = 39 ∧ u.rsp = some 0x0000 ∧ u.outCount = 39

/-- R162, R163, R224: what CIPHER and DECODE_MSG leave unchanged, whether they succeed or fail. -/
def Obligations.CipherAndDecodeMsgFrame : Prop :=
  ∀ (d : Symbol) (s t : State),
    (exec (.cipher d) s = .next t →
      t = { s with
        scr1 := t.scr1, scr2 := t.scr2, scr3 := t.scr3, engState := t.engState, errCode := t.errCode,
        faultSite := t.faultSite, faultSym := t.faultSym, rsp := t.rsp }) ∧
    (exec .decodeMsg s = .next t →
      t = { s with
        scr1 := t.scr1, scr2 := t.scr2, scr3 := t.scr3, engState := t.engState, errCode := t.errCode,
        faultSite := t.faultSite, faultSym := t.faultSym, rsp := t.rsp, plain := t.plain, outCount := t.outCount })

/-- R221 with R226: in IDLE, CIPHER, DECODE_MSG and READ of selectors 0 to 8 raise NOT_READY whatever their operand. -/
def Obligations.EngineCommandsInIdleRaiseNotReady : Prop :=
  ∀ (s : State) (b : Byte), s.engState = .idle →
    ∀ c ∈ [Instr.cipher b, .decodeMsg, .readStat b, .readRefl b, .readScr1 b, .readScr2 b, .readScr3 b, .readNotch b,
        .readStart b, .readCmsg b, .readPlain b],
      exec c s = .next (Raised s .notReady 0x8004)

/-! ### Host access -/

/-- R190: NOP, the word 0x0000 only, answers ok() in every state and changes nothing; 0x0001 to 0x0FFF are illegal. -/
def Obligations.NopAnswersOk : Prop :=
  (∀ s : State, exec .nop s = .next { s with rsp := some 0x0000 }) ∧
  ∀ w : Word, (decode w = .ok .nop ↔ w = 0x0000#16) ∧ (1 ≤ w.toNat → w.toNat ≤ 0x0FFF → ∃ e, decode w = .error e)

/-- R36 with R194 and R222: STATUS answers the status byte, bit by bit, in every state and changes nothing. -/
def Obligations.StatusAnswersTheStatusByte : Prop :=
  ∀ s : State, ∃ b : Byte, exec .status s = .next { s with rsp := some (okWord b) } ∧
    (b.extractLsb' 0 2).toNat = (match s.engState with | .idle => 0 | .ready => 1 | .faulted => 2) ∧
    b.getLsbD 2 = decide (s.pktCount.toNat = 518) ∧
    (b.extractLsb' 3 3).toNat = (match s.errCode with
      | .noError => 0 | .malformed => 1 | .consistency => 2 | .illegalCmd => 3 | .notReady => 4 | .range => 5) ∧
    b.getLsbD 6 = decide (s.outCount.toNat = 39) ∧
    b.getLsbD 7 = decide (s.extCnt.toNat ≠ 0)

/-- R192 with R191: in READY, READ of selectors 0 to 8 answers the entry of its table below the table's limit and changes
nothing. -/
def Obligations.ReadAnswersTheTableEntry : Prop :=
  ∀ s : State, s.engState = .ready →
    (∀ j : Fin 94,
      exec (.readStat (BitVec.ofNat 8 j)) s = .next { s with rsp := some (okWord s.stat[j]) } ∧
      exec (.readRefl (BitVec.ofNat 8 j)) s = .next { s with rsp := some (okWord s.refl[j]) } ∧
      exec (.readScr1 (BitVec.ofNat 8 j)) s = .next { s with rsp := some (okWord s.scr1[j]) } ∧
      exec (.readScr2 (BitVec.ofNat 8 j)) s = .next { s with rsp := some (okWord s.scr2[j]) } ∧
      exec (.readScr3 (BitVec.ofNat 8 j)) s = .next { s with rsp := some (okWord s.scr3[j]) }) ∧
    exec (.readNotch 0) s = .next { s with rsp := some (okWord s.notch1) } ∧
    exec (.readNotch 1) s = .next { s with rsp := some (okWord s.notch2) } ∧
    exec (.readStart 0) s = .next { s with rsp := some (okWord s.start1) } ∧
    exec (.readStart 1) s = .next { s with rsp := some (okWord s.start2) } ∧
    exec (.readStart 2) s = .next { s with rsp := some (okWord s.start3) } ∧
    ∀ k : Fin 39,
      exec (.readCmsg (BitVec.ofNat 8 k)) s = .next { s with rsp := some (okWord s.cmsg[k]) } ∧
      (k.val < s.outCount.toNat →
        exec (.readPlain (BitVec.ofNat 8 k)) s = .next { s with rsp := some (okWord s.plain[k]) })

/-- R221 RANGE with R191, R192 and R226: in READY a READ index at or past its table's limit raises RANGE; REGS has eight
entries in IDLE and READY alike. -/
def Obligations.ReadPastTheLimitRaisesRange : Prop :=
  ∀ (s : State) (i : Byte),
    (s.engState = .ready →
      (94 ≤ i.toNat → ∀ c ∈ [Instr.readStat i, .readRefl i, .readScr1 i, .readScr2 i, .readScr3 i],
        exec c s = .next (Raised s .range 0x8005)) ∧
      (2 ≤ i.toNat → exec (.readNotch i) s = .next (Raised s .range 0x8005)) ∧
      (3 ≤ i.toNat → exec (.readStart i) s = .next (Raised s .range 0x8005)) ∧
      (39 ≤ i.toNat → exec (.readCmsg i) s = .next (Raised s .range 0x8005)) ∧
      (s.outCount.toNat ≤ i.toNat → exec (.readPlain i) s = .next (Raised s .range 0x8005))) ∧
    (s.engState ≠ .faulted → 8 ≤ i.toNat → exec (.readRegs i) s = .next (Raised s .range 0x8005))

/-- R37 with R193 and R223: READ REGS answers the register view in every state and changes nothing. -/
def Obligations.ReadRegsAnswersTheRegisterView : Prop :=
  ∀ s : State,
    exec (.readRegs 0) s = .next { s with rsp := some (okWord (BitVec.ofNat 8 s.extCnt.toNat)) } ∧
    exec (.readRegs 1) s = .next { s with rsp := some (okWord s.extAcc) } ∧
    exec (.readRegs 2) s = .next { s with rsp := some (okWord (BitVec.ofNat 8 (s.pktCount.toNat % 256))) } ∧
    exec (.readRegs 3) s = .next { s with rsp := some (okWord (BitVec.ofNat 8 (s.pktCount.toNat / 256))) } ∧
    exec (.readRegs 4) s = .next { s with rsp := some (okWord (BitVec.ofNat 8 s.outCount.toNat)) } ∧
    exec (.readRegs 5) s = .next { s with rsp := some (okWord (match s.errCode with
      | .noError => 0 | .malformed => 1 | .consistency => 2 | .illegalCmd => 3 | .notReady => 4 | .range => 5)) } ∧
    exec (.readRegs 6) s = .next { s with rsp := some (okWord (match s.faultSite with
      | .noLookup => 0 | .start .r1 => 1 | .start .r2 => 2 | .start .r3 => 3
      | .outbound .r1 => 4 | .outbound .r2 => 5 | .outbound .r3 => 6 | .reflector => 7
      | .inbound .r3 => 8 | .inbound .r2 => 9 | .inbound .r1 => 10)) } ∧
    exec (.readRegs 7) s = .next { s with rsp := some (okWord s.faultSym) }

/-- R196: a READ, STATUS or NOP that succeeds writes no state but the response, and no command's outcome depends on a
response; a READ that raises enters FAULTED. -/
def Obligations.SuccessfulReadsArePure : Prop :=
  ∀ (b : Byte) (s : State),
    ∀ c ∈ [Instr.nop, .status, .readStat b, .readRefl b, .readScr1 b, .readScr2 b, .readScr3 b, .readNotch b,
        .readStart b, .readCmsg b, .readPlain b, .readRegs b],
      ∃ t r, exec c s = .next t ∧ t.rsp = some r ∧
        (r.getLsbD 15 = false → t = { s with rsp := some r } ∧ ∀ i : Instr, exec i t = exec i s) ∧
        (r.getLsbD 15 = true → t.engState = .faulted ∧ (s.engState ≠ .faulted → t.errCode ≠ .noError))

/-- R195 with R261: SOFT_RESET runs in every state, gives every register its stated reset value and answers ok(); STATUS
then answers ok(0x00). -/
def Obligations.SoftResetGivesTheResetState : Prop :=
  ∀ s : State, ∃ t, exec .softReset s = .next t ∧ ResetValues t ∧ t.rsp = some 0x0000 ∧ t.inputs = s.inputs ∧
    t.taken = s.taken ∧ exec .status t = .next { t with rsp := some 0x4000 }

/-! ### Errors and the engine state -/

/-- R227: in FAULTED, NOP, STATUS, READ REGS 0 to 7 and SOFT_RESET run as their rules say and answer no error, and every
other word, legal or illegal, is answered with the recorded error and changes no state. -/
def Obligations.FaultedAnswersTheRecordedError : Prop :=
  ∀ (w : Word) (s : State), s.engState = .faulted →
    (w = 0x0000#16 ∨ w = 0x7000#16 ∨ w = 0xF000#16 ∨ (0x6900 ≤ w.toNat ∧ w.toNat ≤ 0x6907) →
      ∃ i t r, decode w = .ok i ∧ runWord w s = exec i s ∧ exec i s = .next t ∧ t.rsp = some r ∧
        r.getLsbD 15 = false) ∧
    (¬(w = 0x0000#16 ∨ w = 0x7000#16 ∨ w = 0xF000#16 ∨ (0x6900 ≤ w.toNat ∧ w.toNat ≤ 0x6907)) →
      runWord w s = .next { s with rsp := some (0x8000#16 ||| s.errCode.bits.setWidth 16) })

/-- R228: only the reset pin and an accepted SOFT_RESET (0xF000) leave FAULTED, both to IDLE with the error record
cleared; no other step changes anything in it but the interface. -/
def Obligations.FaultedIsLeftOnlyByReset : Prop :=
  ∀ s t : State, s.engState = .faulted → step s = .next t →
    (ResetValues t ∧ ∃ p rest, s.inputs = p :: rest ∧ (p.rstN = false ∨ (s.rsp = none ∧ p.cmd = some 0xF000#16))) ∨
      t = { s with rsp := t.rsp, inputs := t.inputs, taken := t.taken }

/-- R27: the transitions of `eng_state`: to READY by a LOAD from IDLE or READY, to FAULTED from any other state, to IDLE
by reset, and no other. -/
def Obligations.EngineStateTransitions : Prop :=
  ∀ (w : Word) (s t : State), runWord w s = .next t →
    t.engState = s.engState ∨
    (t.engState = .ready ∧ s.engState = .idle ∧ decode w = .ok .load ∧ t.rsp = some 0x0000) ∨
    (t.engState = .faulted ∧ s.engState ≠ .faulted ∧ t.errCode ≠ .noError) ∨
    (t.engState = .idle ∧ decode w = .ok .softReset)

/-! ### The interface and the step -/

/-- R11 with R81: an offered word is accepted where no response waits, and the step is then the decoded command run on
the state past that edge; for an illegal word it is that word's answer. Input edges are the model's own, log entry 1. -/
def Obligations.StepRunsTheDecodedCommand : Prop :=
  ∀ (s : State) (p : PortInput) (rest : List PortInput) (w : Word),
    s.inputs = p :: rest → p.rstN = true → s.rsp = none → p.cmd = some w →
    (∀ i, decode w = .ok i → step s = exec i { s with inputs := rest }) ∧
    (∀ e, decode w = .error e → step s = illegalWord { s with inputs := rest })

/-- R81: a response is held until the host takes it, and until then no command is accepted; an edge at which the host
offers nothing changes nothing. That nothing is accepted at the edge at which the response is taken is log entry 7. -/
def Obligations.ResponseIsHeldUntilTaken : Prop :=
  ∀ (s : State) (p : PortInput) (rest : List PortInput), s.inputs = p :: rest → p.rstN = true →
    (∀ r, s.rsp = some r → cmdReady p s = false ∧ rspPort p s = some r ∧
      (p.rspReady = false → step s = .next { s with inputs := rest }) ∧
      (p.rspReady = true → step s = .next { s with inputs := rest, rsp := none, taken := r :: s.taken })) ∧
    (s.rsp = none → cmdReady p s = true ∧ (p.cmd = none → step s = .next { s with inputs := rest }))

/-- R260: while `rst_n` is 0 the block performs RESET_STATE, accepts no command and offers no response; a response not
yet taken is lost; afterwards the block accepts commands. Input edges are the
model's own, log entry 1. -/
def Obligations.ResetPinLosesTheResponse : Prop :=
  ∀ (s : State) (p : PortInput) (rest : List PortInput), s.inputs = p :: rest → p.rstN = false →
    cmdReady p s = false ∧ rspPort p s = none ∧
    ∃ t, step s = .next t ∧ ResetValues t ∧ t.rsp = none ∧ t.inputs = rest ∧ t.taken = s.taken ∧
      ∀ q : PortInput, q.rstN = true → cmdReady q t = true

/-- R236: where the host offers no command the block holds its state; only the interface moves. That a step with no input
edge left answers the same state is the model's choice, log entry 1. -/
def Obligations.BlockHoldsItsStateBetweenCommands : Prop :=
  ∀ s : State, (s.inputs = [] → step s = .next s) ∧
    ∀ (p : PortInput) (rest : List PortInput), s.inputs = p :: rest → p.rstN = true → p.cmd = none →
      ∃ r k, step s = .next { s with inputs := rest, rsp := r, taken := k }

/-- R261: the reset state holds every value R261 states. (Its other registers are log entry 2's choice; nothing is said
of them.) -/
def Obligations.ResetStateHoldsTheStatedValues : Prop :=
  ResetValues State.reset ∧ exec .status State.reset = .next { State.reset with rsp := some 0x4000 }

/-- The invariant holds at reset. Its clauses on the capture buffer rest on the model's choice, log entry 4. -/
def Obligations.ResetStateMeetsTheInvariant : Prop := State.reset.Inv

/-- Every step keeps the invariant, from every state that meets it. Its clauses on the capture buffer speak of the model's
choice, log entry 4. -/
def Obligations.StepKeepsTheInvariant : Prop :=
  ∀ s t : State, s.Inv → step s = .next t → t.Inv

/-- R262, one step: two states that differ only in what a reset leaves unspecified and nothing has written since step to
states of that kind, with the same response and the same response history. -/
def Obligations.UnspecifiedRegistersAreNeverObserved : Prop :=
  ∀ s t s' : State, s.payload.wf = true → t.payload.wf = true → SameToHost s t → step s = .next s' →
    ∃ t', step t = .next t' ∧ SameToHost s' t'

/-- R270 with R262: from the reset state the responses are a function of the host's inputs alone, whatever the registers
hold that R261 leaves unspecified, and every command terminates. The inputs and the history are log entry 1's. -/
def Obligations.ResponsesAreAFunctionOfTheInputs : Prop :=
  ∀ s t : State, ResetValues s → ResetValues t → s.payload.wf = true → t.payload.wf = true →
    s.inputs = t.inputs → s.rsp = t.rsp → s.taken = t.taken →
    ∀ k : Nat, ∃ s' t', Host.Core.run Sys2Proof.core k s = .next s' ∧ Host.Core.run Sys2Proof.core k t = .next t' ∧
      s'.taken = t'.taken ∧ s'.rsp = t'.rsp
end

