-- ==== Sys2Proof/Laws/State.lean ====
section
/-! SUPPORT. What each named update of the state does to each field. -/

namespace Sys2Proof.Machine

/-! ### respond -/

@[simp] theorem respond_extAcc (e d : Bool) (v : Byte) (s : State) : (respond e d v s).extAcc = s.extAcc := rfl
@[simp] theorem respond_extCnt (e d : Bool) (v : Byte) (s : State) : (respond e d v s).extCnt = s.extCnt := rfl
@[simp] theorem respond_pktCount (e d : Bool) (v : Byte) (s : State) : (respond e d v s).pktCount = s.pktCount := rfl
@[simp] theorem respond_payload (e d : Bool) (v : Byte) (s : State) : (respond e d v s).payload = s.payload := rfl
@[simp] theorem respond_engState (e d : Bool) (v : Byte) (s : State) : (respond e d v s).engState = s.engState := rfl
@[simp] theorem respond_stat (e d : Bool) (v : Byte) (s : State) : (respond e d v s).stat = s.stat := rfl
@[simp] theorem respond_refl (e d : Bool) (v : Byte) (s : State) : (respond e d v s).refl = s.refl := rfl
@[simp] theorem respond_scr1 (e d : Bool) (v : Byte) (s : State) : (respond e d v s).scr1 = s.scr1 := rfl
@[simp] theorem respond_scr2 (e d : Bool) (v : Byte) (s : State) : (respond e d v s).scr2 = s.scr2 := rfl
@[simp] theorem respond_scr3 (e d : Bool) (v : Byte) (s : State) : (respond e d v s).scr3 = s.scr3 := rfl
@[simp] theorem respond_notch1 (e d : Bool) (v : Byte) (s : State) : (respond e d v s).notch1 = s.notch1 := rfl
@[simp] theorem respond_notch2 (e d : Bool) (v : Byte) (s : State) : (respond e d v s).notch2 = s.notch2 := rfl
@[simp] theorem respond_start1 (e d : Bool) (v : Byte) (s : State) : (respond e d v s).start1 = s.start1 := rfl
@[simp] theorem respond_start2 (e d : Bool) (v : Byte) (s : State) : (respond e d v s).start2 = s.start2 := rfl
@[simp] theorem respond_start3 (e d : Bool) (v : Byte) (s : State) : (respond e d v s).start3 = s.start3 := rfl
@[simp] theorem respond_cmsg (e d : Bool) (v : Byte) (s : State) : (respond e d v s).cmsg = s.cmsg := rfl
@[simp] theorem respond_plain (e d : Bool) (v : Byte) (s : State) : (respond e d v s).plain = s.plain := rfl
@[simp] theorem respond_outCount (e d : Bool) (v : Byte) (s : State) : (respond e d v s).outCount = s.outCount := rfl
@[simp] theorem respond_errCode (e d : Bool) (v : Byte) (s : State) : (respond e d v s).errCode = s.errCode := rfl
@[simp] theorem respond_faultSite (e d : Bool) (v : Byte) (s : State) : (respond e d v s).faultSite = s.faultSite := rfl
@[simp] theorem respond_faultSym (e d : Bool) (v : Byte) (s : State) : (respond e d v s).faultSym = s.faultSym := rfl
@[simp] theorem respond_rsp (e d : Bool) (v : Byte) (s : State) : (respond e d v s).rsp = some (responseWord e d v) := rfl
@[simp] theorem respond_inputs (e d : Bool) (v : Byte) (s : State) : (respond e d v s).inputs = s.inputs := rfl
@[simp] theorem respond_taken (e d : Bool) (v : Byte) (s : State) : (respond e d v s).taken = s.taken := rfl
@[simp] theorem respond_freeIdx (e d : Bool) (v : Byte) (s : State) : (respond e d v s).freeIdx = s.freeIdx := rfl

/-! ### ok -/

@[simp] theorem ok_extAcc (s : State) : (ok s).extAcc = s.extAcc := rfl
@[simp] theorem ok_extCnt (s : State) : (ok s).extCnt = s.extCnt := rfl
@[simp] theorem ok_pktCount (s : State) : (ok s).pktCount = s.pktCount := rfl
@[simp] theorem ok_payload (s : State) : (ok s).payload = s.payload := rfl
@[simp] theorem ok_engState (s : State) : (ok s).engState = s.engState := rfl
@[simp] theorem ok_stat (s : State) : (ok s).stat = s.stat := rfl
@[simp] theorem ok_refl (s : State) : (ok s).refl = s.refl := rfl
@[simp] theorem ok_scr1 (s : State) : (ok s).scr1 = s.scr1 := rfl
@[simp] theorem ok_scr2 (s : State) : (ok s).scr2 = s.scr2 := rfl
@[simp] theorem ok_scr3 (s : State) : (ok s).scr3 = s.scr3 := rfl
@[simp] theorem ok_notch1 (s : State) : (ok s).notch1 = s.notch1 := rfl
@[simp] theorem ok_notch2 (s : State) : (ok s).notch2 = s.notch2 := rfl
@[simp] theorem ok_start1 (s : State) : (ok s).start1 = s.start1 := rfl
@[simp] theorem ok_start2 (s : State) : (ok s).start2 = s.start2 := rfl
@[simp] theorem ok_start3 (s : State) : (ok s).start3 = s.start3 := rfl
@[simp] theorem ok_cmsg (s : State) : (ok s).cmsg = s.cmsg := rfl
@[simp] theorem ok_plain (s : State) : (ok s).plain = s.plain := rfl
@[simp] theorem ok_outCount (s : State) : (ok s).outCount = s.outCount := rfl
@[simp] theorem ok_errCode (s : State) : (ok s).errCode = s.errCode := rfl
@[simp] theorem ok_faultSite (s : State) : (ok s).faultSite = s.faultSite := rfl
@[simp] theorem ok_faultSym (s : State) : (ok s).faultSym = s.faultSym := rfl
@[simp] theorem ok_rsp (s : State) : (ok s).rsp = some (responseWord false false 0) := rfl
@[simp] theorem ok_inputs (s : State) : (ok s).inputs = s.inputs := rfl
@[simp] theorem ok_taken (s : State) : (ok s).taken = s.taken := rfl
@[simp] theorem ok_freeIdx (s : State) : (ok s).freeIdx = s.freeIdx := rfl

/-! ### okv -/

@[simp] theorem okv_extAcc (v : Byte) (s : State) : (okv v s).extAcc = s.extAcc := rfl
@[simp] theorem okv_extCnt (v : Byte) (s : State) : (okv v s).extCnt = s.extCnt := rfl
@[simp] theorem okv_pktCount (v : Byte) (s : State) : (okv v s).pktCount = s.pktCount := rfl
@[simp] theorem okv_payload (v : Byte) (s : State) : (okv v s).payload = s.payload := rfl
@[simp] theorem okv_engState (v : Byte) (s : State) : (okv v s).engState = s.engState := rfl
@[simp] theorem okv_stat (v : Byte) (s : State) : (okv v s).stat = s.stat := rfl
@[simp] theorem okv_refl (v : Byte) (s : State) : (okv v s).refl = s.refl := rfl
@[simp] theorem okv_scr1 (v : Byte) (s : State) : (okv v s).scr1 = s.scr1 := rfl
@[simp] theorem okv_scr2 (v : Byte) (s : State) : (okv v s).scr2 = s.scr2 := rfl
@[simp] theorem okv_scr3 (v : Byte) (s : State) : (okv v s).scr3 = s.scr3 := rfl
@[simp] theorem okv_notch1 (v : Byte) (s : State) : (okv v s).notch1 = s.notch1 := rfl
@[simp] theorem okv_notch2 (v : Byte) (s : State) : (okv v s).notch2 = s.notch2 := rfl
@[simp] theorem okv_start1 (v : Byte) (s : State) : (okv v s).start1 = s.start1 := rfl
@[simp] theorem okv_start2 (v : Byte) (s : State) : (okv v s).start2 = s.start2 := rfl
@[simp] theorem okv_start3 (v : Byte) (s : State) : (okv v s).start3 = s.start3 := rfl
@[simp] theorem okv_cmsg (v : Byte) (s : State) : (okv v s).cmsg = s.cmsg := rfl
@[simp] theorem okv_plain (v : Byte) (s : State) : (okv v s).plain = s.plain := rfl
@[simp] theorem okv_outCount (v : Byte) (s : State) : (okv v s).outCount = s.outCount := rfl
@[simp] theorem okv_errCode (v : Byte) (s : State) : (okv v s).errCode = s.errCode := rfl
@[simp] theorem okv_faultSite (v : Byte) (s : State) : (okv v s).faultSite = s.faultSite := rfl
@[simp] theorem okv_faultSym (v : Byte) (s : State) : (okv v s).faultSym = s.faultSym := rfl
@[simp] theorem okv_rsp (v : Byte) (s : State) : (okv v s).rsp = some (responseWord false true v) := rfl
@[simp] theorem okv_inputs (v : Byte) (s : State) : (okv v s).inputs = s.inputs := rfl
@[simp] theorem okv_taken (v : Byte) (s : State) : (okv v s).taken = s.taken := rfl
@[simp] theorem okv_freeIdx (v : Byte) (s : State) : (okv v s).freeIdx = s.freeIdx := rfl

/-! ### raise -/

@[simp] theorem raise_extAcc (e : ErrCode) (site : FaultSite) (sym : Symbol) (s : State) : (raise e site sym s).extAcc = s.extAcc := rfl
@[simp] theorem raise_extCnt (e : ErrCode) (site : FaultSite) (sym : Symbol) (s : State) : (raise e site sym s).extCnt = s.extCnt := rfl
@[simp] theorem raise_pktCount (e : ErrCode) (site : FaultSite) (sym : Symbol) (s : State) : (raise e site sym s).pktCount = s.pktCount := rfl
@[simp] theorem raise_payload (e : ErrCode) (site : FaultSite) (sym : Symbol) (s : State) : (raise e site sym s).payload = s.payload := rfl
@[simp] theorem raise_engState (e : ErrCode) (site : FaultSite) (sym : Symbol) (s : State) : (raise e site sym s).engState = .faulted := rfl
@[simp] theorem raise_stat (e : ErrCode) (site : FaultSite) (sym : Symbol) (s : State) : (raise e site sym s).stat = s.stat := rfl
@[simp] theorem raise_refl (e : ErrCode) (site : FaultSite) (sym : Symbol) (s : State) : (raise e site sym s).refl = s.refl := rfl
@[simp] theorem raise_scr1 (e : ErrCode) (site : FaultSite) (sym : Symbol) (s : State) : (raise e site sym s).scr1 = s.scr1 := rfl
@[simp] theorem raise_scr2 (e : ErrCode) (site : FaultSite) (sym : Symbol) (s : State) : (raise e site sym s).scr2 = s.scr2 := rfl
@[simp] theorem raise_scr3 (e : ErrCode) (site : FaultSite) (sym : Symbol) (s : State) : (raise e site sym s).scr3 = s.scr3 := rfl
@[simp] theorem raise_notch1 (e : ErrCode) (site : FaultSite) (sym : Symbol) (s : State) : (raise e site sym s).notch1 = s.notch1 := rfl
@[simp] theorem raise_notch2 (e : ErrCode) (site : FaultSite) (sym : Symbol) (s : State) : (raise e site sym s).notch2 = s.notch2 := rfl
@[simp] theorem raise_start1 (e : ErrCode) (site : FaultSite) (sym : Symbol) (s : State) : (raise e site sym s).start1 = s.start1 := rfl
@[simp] theorem raise_start2 (e : ErrCode) (site : FaultSite) (sym : Symbol) (s : State) : (raise e site sym s).start2 = s.start2 := rfl
@[simp] theorem raise_start3 (e : ErrCode) (site : FaultSite) (sym : Symbol) (s : State) : (raise e site sym s).start3 = s.start3 := rfl
@[simp] theorem raise_cmsg (e : ErrCode) (site : FaultSite) (sym : Symbol) (s : State) : (raise e site sym s).cmsg = s.cmsg := rfl
@[simp] theorem raise_plain (e : ErrCode) (site : FaultSite) (sym : Symbol) (s : State) : (raise e site sym s).plain = s.plain := rfl
@[simp] theorem raise_outCount (e : ErrCode) (site : FaultSite) (sym : Symbol) (s : State) : (raise e site sym s).outCount = s.outCount := rfl
@[simp] theorem raise_errCode (e : ErrCode) (site : FaultSite) (sym : Symbol) (s : State) : (raise e site sym s).errCode = e := rfl
@[simp] theorem raise_faultSite (e : ErrCode) (site : FaultSite) (sym : Symbol) (s : State) : (raise e site sym s).faultSite = site := rfl
@[simp] theorem raise_faultSym (e : ErrCode) (site : FaultSite) (sym : Symbol) (s : State) : (raise e site sym s).faultSym = sym := rfl
@[simp] theorem raise_rsp (e : ErrCode) (site : FaultSite) (sym : Symbol) (s : State) : (raise e site sym s).rsp = some (responseWord true false (e.bits.setWidth 8)) := rfl
@[simp] theorem raise_inputs (e : ErrCode) (site : FaultSite) (sym : Symbol) (s : State) : (raise e site sym s).inputs = s.inputs := rfl
@[simp] theorem raise_taken (e : ErrCode) (site : FaultSite) (sym : Symbol) (s : State) : (raise e site sym s).taken = s.taken := rfl
@[simp] theorem raise_freeIdx (e : ErrCode) (site : FaultSite) (sym : Symbol) (s : State) : (raise e site sym s).freeIdx = s.freeIdx := rfl

/-! ### memWrite -/

@[simp] theorem memWrite_extAcc (i : Fin 514) (v : Byte) (s : State) : (memWrite i v s).extAcc = s.extAcc := rfl
@[simp] theorem memWrite_extCnt (i : Fin 514) (v : Byte) (s : State) : (memWrite i v s).extCnt = s.extCnt := rfl
@[simp] theorem memWrite_pktCount (i : Fin 514) (v : Byte) (s : State) : (memWrite i v s).pktCount = s.pktCount := rfl
@[simp] theorem memWrite_payload (i : Fin 514) (v : Byte) (s : State) : (memWrite i v s).payload = Memory.write s.payload i v := rfl
@[simp] theorem memWrite_engState (i : Fin 514) (v : Byte) (s : State) : (memWrite i v s).engState = s.engState := rfl
@[simp] theorem memWrite_stat (i : Fin 514) (v : Byte) (s : State) : (memWrite i v s).stat = s.stat := rfl
@[simp] theorem memWrite_refl (i : Fin 514) (v : Byte) (s : State) : (memWrite i v s).refl = s.refl := rfl
@[simp] theorem memWrite_scr1 (i : Fin 514) (v : Byte) (s : State) : (memWrite i v s).scr1 = s.scr1 := rfl
@[simp] theorem memWrite_scr2 (i : Fin 514) (v : Byte) (s : State) : (memWrite i v s).scr2 = s.scr2 := rfl
@[simp] theorem memWrite_scr3 (i : Fin 514) (v : Byte) (s : State) : (memWrite i v s).scr3 = s.scr3 := rfl
@[simp] theorem memWrite_notch1 (i : Fin 514) (v : Byte) (s : State) : (memWrite i v s).notch1 = s.notch1 := rfl
@[simp] theorem memWrite_notch2 (i : Fin 514) (v : Byte) (s : State) : (memWrite i v s).notch2 = s.notch2 := rfl
@[simp] theorem memWrite_start1 (i : Fin 514) (v : Byte) (s : State) : (memWrite i v s).start1 = s.start1 := rfl
@[simp] theorem memWrite_start2 (i : Fin 514) (v : Byte) (s : State) : (memWrite i v s).start2 = s.start2 := rfl
@[simp] theorem memWrite_start3 (i : Fin 514) (v : Byte) (s : State) : (memWrite i v s).start3 = s.start3 := rfl
@[simp] theorem memWrite_cmsg (i : Fin 514) (v : Byte) (s : State) : (memWrite i v s).cmsg = s.cmsg := rfl
@[simp] theorem memWrite_plain (i : Fin 514) (v : Byte) (s : State) : (memWrite i v s).plain = s.plain := rfl
@[simp] theorem memWrite_outCount (i : Fin 514) (v : Byte) (s : State) : (memWrite i v s).outCount = s.outCount := rfl
@[simp] theorem memWrite_errCode (i : Fin 514) (v : Byte) (s : State) : (memWrite i v s).errCode = s.errCode := rfl
@[simp] theorem memWrite_faultSite (i : Fin 514) (v : Byte) (s : State) : (memWrite i v s).faultSite = s.faultSite := rfl
@[simp] theorem memWrite_faultSym (i : Fin 514) (v : Byte) (s : State) : (memWrite i v s).faultSym = s.faultSym := rfl
@[simp] theorem memWrite_rsp (i : Fin 514) (v : Byte) (s : State) : (memWrite i v s).rsp = s.rsp := rfl
@[simp] theorem memWrite_inputs (i : Fin 514) (v : Byte) (s : State) : (memWrite i v s).inputs = s.inputs := rfl
@[simp] theorem memWrite_taken (i : Fin 514) (v : Byte) (s : State) : (memWrite i v s).taken = s.taken := rfl
@[simp] theorem memWrite_freeIdx (i : Fin 514) (v : Byte) (s : State) : (memWrite i v s).freeIdx = s.freeIdx := rfl

/-! ### setScr: the wheel of one rotor -/

@[simp] theorem setScr_r1 (s : State) (w : Wheel) : s.setScr .r1 w = { s with scr1 := w } := rfl
@[simp] theorem scr_r1 (s : State) : s.scr .r1 = s.scr1 := rfl
@[simp] theorem start_r1 (s : State) : s.start .r1 = s.start1 := rfl
@[simp] theorem setScr_r2 (s : State) (w : Wheel) : s.setScr .r2 w = { s with scr2 := w } := rfl
@[simp] theorem scr_r2 (s : State) : s.scr .r2 = s.scr2 := rfl
@[simp] theorem start_r2 (s : State) : s.start .r2 = s.start2 := rfl
@[simp] theorem setScr_r3 (s : State) (w : Wheel) : s.setScr .r3 w = { s with scr3 := w } := rfl
@[simp] theorem scr_r3 (s : State) : s.scr .r3 = s.scr3 := rfl
@[simp] theorem start_r3 (s : State) : s.start .r3 = s.start3 := rfl
@[simp] theorem setScr_extAcc (s : State) (r : Rotor) (w : Wheel) : (s.setScr r w).extAcc = s.extAcc := by cases r <;> rfl
@[simp] theorem setScr_extCnt (s : State) (r : Rotor) (w : Wheel) : (s.setScr r w).extCnt = s.extCnt := by cases r <;> rfl
@[simp] theorem setScr_pktCount (s : State) (r : Rotor) (w : Wheel) : (s.setScr r w).pktCount = s.pktCount := by cases r <;> rfl
@[simp] theorem setScr_payload (s : State) (r : Rotor) (w : Wheel) : (s.setScr r w).payload = s.payload := by cases r <;> rfl
@[simp] theorem setScr_engState (s : State) (r : Rotor) (w : Wheel) : (s.setScr r w).engState = s.engState := by cases r <;> rfl
@[simp] theorem setScr_stat (s : State) (r : Rotor) (w : Wheel) : (s.setScr r w).stat = s.stat := by cases r <;> rfl
@[simp] theorem setScr_refl (s : State) (r : Rotor) (w : Wheel) : (s.setScr r w).refl = s.refl := by cases r <;> rfl
@[simp] theorem setScr_notch1 (s : State) (r : Rotor) (w : Wheel) : (s.setScr r w).notch1 = s.notch1 := by cases r <;> rfl
@[simp] theorem setScr_notch2 (s : State) (r : Rotor) (w : Wheel) : (s.setScr r w).notch2 = s.notch2 := by cases r <;> rfl
@[simp] theorem setScr_start1 (s : State) (r : Rotor) (w : Wheel) : (s.setScr r w).start1 = s.start1 := by cases r <;> rfl
@[simp] theorem setScr_start2 (s : State) (r : Rotor) (w : Wheel) : (s.setScr r w).start2 = s.start2 := by cases r <;> rfl
@[simp] theorem setScr_start3 (s : State) (r : Rotor) (w : Wheel) : (s.setScr r w).start3 = s.start3 := by cases r <;> rfl
@[simp] theorem setScr_cmsg (s : State) (r : Rotor) (w : Wheel) : (s.setScr r w).cmsg = s.cmsg := by cases r <;> rfl
@[simp] theorem setScr_plain (s : State) (r : Rotor) (w : Wheel) : (s.setScr r w).plain = s.plain := by cases r <;> rfl
@[simp] theorem setScr_outCount (s : State) (r : Rotor) (w : Wheel) : (s.setScr r w).outCount = s.outCount := by cases r <;> rfl
@[simp] theorem setScr_errCode (s : State) (r : Rotor) (w : Wheel) : (s.setScr r w).errCode = s.errCode := by cases r <;> rfl
@[simp] theorem setScr_faultSite (s : State) (r : Rotor) (w : Wheel) : (s.setScr r w).faultSite = s.faultSite := by cases r <;> rfl
@[simp] theorem setScr_faultSym (s : State) (r : Rotor) (w : Wheel) : (s.setScr r w).faultSym = s.faultSym := by cases r <;> rfl
@[simp] theorem setScr_rsp (s : State) (r : Rotor) (w : Wheel) : (s.setScr r w).rsp = s.rsp := by cases r <;> rfl
@[simp] theorem setScr_inputs (s : State) (r : Rotor) (w : Wheel) : (s.setScr r w).inputs = s.inputs := by cases r <;> rfl
@[simp] theorem setScr_taken (s : State) (r : Rotor) (w : Wheel) : (s.setScr r w).taken = s.taken := by cases r <;> rfl
@[simp] theorem setScr_freeIdx (s : State) (r : Rotor) (w : Wheel) : (s.setScr r w).freeIdx = s.freeIdx := by cases r <;> rfl

/-! ### takeResponse -/

@[simp] theorem takeResponse_extAcc (r : Word) (s : State) : (takeResponse r s).extAcc = s.extAcc := rfl
@[simp] theorem takeResponse_extCnt (r : Word) (s : State) : (takeResponse r s).extCnt = s.extCnt := rfl
@[simp] theorem takeResponse_pktCount (r : Word) (s : State) : (takeResponse r s).pktCount = s.pktCount := rfl
@[simp] theorem takeResponse_payload (r : Word) (s : State) : (takeResponse r s).payload = s.payload := rfl
@[simp] theorem takeResponse_engState (r : Word) (s : State) : (takeResponse r s).engState = s.engState := rfl
@[simp] theorem takeResponse_stat (r : Word) (s : State) : (takeResponse r s).stat = s.stat := rfl
@[simp] theorem takeResponse_refl (r : Word) (s : State) : (takeResponse r s).refl = s.refl := rfl
@[simp] theorem takeResponse_scr1 (r : Word) (s : State) : (takeResponse r s).scr1 = s.scr1 := rfl
@[simp] theorem takeResponse_scr2 (r : Word) (s : State) : (takeResponse r s).scr2 = s.scr2 := rfl
@[simp] theorem takeResponse_scr3 (r : Word) (s : State) : (takeResponse r s).scr3 = s.scr3 := rfl
@[simp] theorem takeResponse_notch1 (r : Word) (s : State) : (takeResponse r s).notch1 = s.notch1 := rfl
@[simp] theorem takeResponse_notch2 (r : Word) (s : State) : (takeResponse r s).notch2 = s.notch2 := rfl
@[simp] theorem takeResponse_start1 (r : Word) (s : State) : (takeResponse r s).start1 = s.start1 := rfl
@[simp] theorem takeResponse_start2 (r : Word) (s : State) : (takeResponse r s).start2 = s.start2 := rfl
@[simp] theorem takeResponse_start3 (r : Word) (s : State) : (takeResponse r s).start3 = s.start3 := rfl
@[simp] theorem takeResponse_cmsg (r : Word) (s : State) : (takeResponse r s).cmsg = s.cmsg := rfl
@[simp] theorem takeResponse_plain (r : Word) (s : State) : (takeResponse r s).plain = s.plain := rfl
@[simp] theorem takeResponse_outCount (r : Word) (s : State) : (takeResponse r s).outCount = s.outCount := rfl
@[simp] theorem takeResponse_errCode (r : Word) (s : State) : (takeResponse r s).errCode = s.errCode := rfl
@[simp] theorem takeResponse_faultSite (r : Word) (s : State) : (takeResponse r s).faultSite = s.faultSite := rfl
@[simp] theorem takeResponse_faultSym (r : Word) (s : State) : (takeResponse r s).faultSym = s.faultSym := rfl
@[simp] theorem takeResponse_rsp (r : Word) (s : State) : (takeResponse r s).rsp = none := rfl
@[simp] theorem takeResponse_inputs (r : Word) (s : State) : (takeResponse r s).inputs = s.inputs := rfl
@[simp] theorem takeResponse_taken (r : Word) (s : State) : (takeResponse r s).taken = r :: s.taken := rfl
@[simp] theorem takeResponse_freeIdx (r : Word) (s : State) : (takeResponse r s).freeIdx = s.freeIdx := rfl

/-! ### resetState: the fields R261 states, and those no reset writes -/

@[simp] theorem resetState_extAcc (s : State) : (resetState s).extAcc = 0 := rfl
@[simp] theorem resetState_extCnt (s : State) : (resetState s).extCnt = 0 := rfl
@[simp] theorem resetState_pktCount (s : State) : (resetState s).pktCount = 0 := rfl
@[simp] theorem resetState_payload (s : State) : (resetState s).payload = [] := rfl
@[simp] theorem resetState_engState (s : State) : (resetState s).engState = .idle := rfl
@[simp] theorem resetState_outCount (s : State) : (resetState s).outCount = 0 := rfl
@[simp] theorem resetState_errCode (s : State) : (resetState s).errCode = .noError := rfl
@[simp] theorem resetState_faultSite (s : State) : (resetState s).faultSite = .noLookup := rfl
@[simp] theorem resetState_faultSym (s : State) : (resetState s).faultSym = 0 := rfl
@[simp] theorem resetState_rsp (s : State) : (resetState s).rsp = s.rsp := rfl
@[simp] theorem resetState_inputs (s : State) : (resetState s).inputs = s.inputs := rfl
@[simp] theorem resetState_taken (s : State) : (resetState s).taken = s.taken := rfl
@[simp] theorem resetState_freeIdx (s : State) : (resetState s).freeIdx = s.freeIdx + 1 := rfl

/-! ### pinReset -/

@[simp] theorem pinReset_extAcc (s : State) : (pinReset s).extAcc = 0 := rfl
@[simp] theorem pinReset_extCnt (s : State) : (pinReset s).extCnt = 0 := rfl
@[simp] theorem pinReset_pktCount (s : State) : (pinReset s).pktCount = 0 := rfl
@[simp] theorem pinReset_payload (s : State) : (pinReset s).payload = [] := rfl
@[simp] theorem pinReset_engState (s : State) : (pinReset s).engState = .idle := rfl
@[simp] theorem pinReset_outCount (s : State) : (pinReset s).outCount = 0 := rfl
@[simp] theorem pinReset_errCode (s : State) : (pinReset s).errCode = .noError := rfl
@[simp] theorem pinReset_faultSite (s : State) : (pinReset s).faultSite = .noLookup := rfl
@[simp] theorem pinReset_faultSym (s : State) : (pinReset s).faultSym = 0 := rfl
@[simp] theorem pinReset_rsp (s : State) : (pinReset s).rsp = none := rfl
@[simp] theorem pinReset_inputs (s : State) : (pinReset s).inputs = s.inputs := rfl
@[simp] theorem pinReset_taken (s : State) : (pinReset s).taken = s.taken := rfl
@[simp] theorem pinReset_freeIdx (s : State) : (pinReset s).freeIdx = s.freeIdx + 1 := rfl

end Sys2Proof.Machine
end

