-- ==== Sys2Proof/Laws/Wheels.lean ====
section
/-! SUPPORT. Lookup and rotation of wheels, in the terms of Safety.lean. -/

namespace Sys2Proof.Machine

/-- `indexOf` finds the least index (R8). -/
theorem indexOf_eq_some (w : Wheel) (x : Symbol) (i : Fin 94) : indexOf w x = some i ↔ FirstAt w x i := by
  simp only [indexOf, Option.map_eq_some_iff, List.finIdxOf?_eq_some_iff]
  constructor
  · rintro ⟨k, ⟨h, hl⟩, rfl⟩
    refine ⟨by simpa using h, fun j hj e => hl (Fin.cast w.length_toList.symm j) (by simpa [Fin.lt_def] using hj) ?_⟩
    simpa using e
  · rintro ⟨h, hl⟩
    refine ⟨Fin.cast w.length_toList.symm i, ⟨by simpa using h, fun j hj e => ?_⟩, by simp⟩
    exact hl (Fin.cast w.length_toList j) (by simpa [Fin.lt_def] using hj) (by simpa using e)

/-- `indexOf` finds nothing exactly where the symbol is absent (R8). -/
theorem indexOf_eq_none (w : Wheel) (x : Symbol) : indexOf w x = none ↔ Absent w x := by
  simp only [indexOf, Option.map_eq_none_iff, List.finIdxOf?_eq_none_iff, Vector.mem_toList_iff, Vector.mem_iff_getElem]
  constructor
  · exact fun h j e => h ⟨j.val, j.isLt, e⟩
  · rintro h ⟨j, hj, e⟩
    exact h ⟨j, hj⟩ e

/-- The least index is unique. -/
theorem FirstAt_unique {w : Wheel} {x : Symbol} {i j : Fin 94} (hi : FirstAt w x i) (hj : FirstAt w x j) : i = j :=
  Option.some.inj (((indexOf_eq_some w x i).2 hi).symm.trans ((indexOf_eq_some w x j).2 hj))

/-- A symbol that occurs has a least index. -/
theorem FirstAt_of_getElem (w : Wheel) (j : Fin 94) : ∃ i, FirstAt w w[j] i := by
  cases h : indexOf w w[j] with
  | none => exact absurd rfl ((indexOf_eq_none _ _).1 h j)
  | some i => exact ⟨i, (indexOf_eq_some _ _ i).1 h⟩

/-- `rotl` is the rotation of R8. -/
theorem rotl_getElem (w : Wheel) (i j : Nat) (h : j < 94) :
    (rotl w i)[j] = w[(j + i) % 94]'(Nat.mod_lt _ (by decide)) := by
  simp only [rotl, Vector.getElem_mk, List.getElem_toArray, List.getElem_rotate, Vector.length_toList]
  rfl

theorem rotl_Rotated (w : Wheel) (i : Nat) : Rotated w (rotl w i) i := fun j => rotl_getElem w i j j.isLt

/-- A rotation by a given amount is unique. -/
theorem Rotated_unique {old a b : Wheel} {i : Nat} (ha : Rotated old a i) (hb : Rotated old b i) : a = b :=
  Vector.ext fun j hj => (ha ⟨j, hj⟩).trans (hb ⟨j, hj⟩).symm

/-- A rotation keeps the multiset of entries (R30). -/
theorem rotl_perm (w : Wheel) (i : Nat) : (rotl w i).toList.Perm w.toList := by
  have h : (rotl w i).toList = w.toList.rotate i := by simp [rotl, Vector.toList]
  rw [h]
  exact List.rotate_perm _ _

/-- `STEP_TO` succeeds exactly where the target occurs (R151). -/
theorem stepTo_eq_some {w v : Wheel} {t : Symbol} :
    stepTo w t = some v ↔ ∃ i : Fin 94, FirstAt w t i ∧ v = rotl w i := by
  simp only [stepTo, Option.map_eq_some_iff, indexOf_eq_some]
  exact ⟨fun ⟨i, h, e⟩ => ⟨i, h, e.symm⟩, fun ⟨i, h, e⟩ => ⟨i, h, e.symm⟩⟩

theorem stepTo_eq_none (w : Wheel) (t : Symbol) : stepTo w t = none ↔ Absent w t := by
  simp [stepTo, indexOf_eq_none]

/-- The default step as a rotation by the least index of the last symbol (R152). -/
theorem stepDefault_eq {w : Wheel} {m : Fin 94} (h : FirstAt w w[93] m) : stepDefault w = rotl w m := by
  rw [stepDefault, stepTo_eq_some.2 ⟨m, h, rfl⟩]
  rfl

/-- The default step keeps the multiset of entries (R30). -/
theorem stepDefault_perm (w : Wheel) : (stepDefault w).toList.Perm w.toList := by
  obtain ⟨m, h⟩ := FirstAt_of_getElem w 93
  exact stepDefault_eq h ▸ rotl_perm w m

/-- `StepsTo` and the model's step name the same wheel. -/
theorem stepsTo_iff (w v : Wheel) : StepsTo w v ↔ v = stepDefault w := by
  constructor
  · rintro ⟨m, h, hr⟩
    rw [stepDefault_eq h]
    exact Rotated_unique hr (rotl_Rotated w m)
  · rintro rfl
    obtain ⟨m, h⟩ := FirstAt_of_getElem w 93
    exact ⟨m, h, stepDefault_eq h ▸ rotl_Rotated w m⟩

end Sys2Proof.Machine
end

