-- ==== Sys2Proof/Laws/Cipher.lean ====
section
/-! SUPPORT. What the stepping, the seven lookups and the loop of DECODE_MSG do, once for all callers. -/

namespace Sys2Proof.Machine

/-- The stepping of one iteration, wheel by wheel (R158, R159). -/
theorem stepRotors_eq (s : State) :
    stepRotors s = { s with
      scr1 := stepDefault s.scr1
      scr2 := if s.scr1[0] = s.notch1 then stepDefault s.scr2 else s.scr2
      scr3 := if s.scr2[0] = s.notch2 then stepDefault s.scr3 else s.scr3 } := by
  by_cases h2 : s.scr1[0] = s.notch1 <;> by_cases h3 : s.scr2[0] = s.notch2 <;>
    simp [stepRotors, stepRotor, h2, h3]

/-- The wheels `Stepped` names are the ones the model's stepping leaves. -/
theorem stepped_iff (s : State) (w1 w2 w3 : Wheel) :
    Stepped s w1 w2 w3 ↔ stepRotors s = { s with scr1 := w1, scr2 := w2, scr3 := w3 } := by
  simp only [Stepped, stepsTo_iff, stepRotors_eq, State.mk.injEq, true_and, and_true]
  constructor
  · rintro ⟨rfl, h2, h3⟩
    refine ⟨rfl, ?_, ?_⟩
    · by_cases h : s.scr1[0] = s.notch1 <;> simp_all
    · by_cases h : s.scr2[0] = s.notch2 <;> simp_all
  · rintro ⟨rfl, rfl, rfl⟩
    refine ⟨rfl, ?_, ?_⟩ <;> split <;> rfl

theorem outbound_eq_ok {s : State} {r : Rotor} {x y : Symbol} :
    outbound s r x = .ok y ↔ Maps s.stat (s.scr r) x y := by
  unfold outbound
  cases h : indexOf s.stat x with
  | none => simpa using fun i hi _ => absurd hi ((indexOf_eq_none _ _).1 h i)
  | some i =>
    have hi := (indexOf_eq_some _ _ _).1 h
    simp only [Except.ok.injEq]
    exact ⟨fun e => ⟨i, hi, e.symm⟩, fun ⟨j, hj, e⟩ => by rw [e, FirstAt_unique hj hi]⟩

theorem outbound_eq_error {s : State} {r : Rotor} {x : Symbol} {m : Miss} :
    outbound s r x = .error m ↔ Absent s.stat x ∧ m = ⟨.outbound r, x⟩ := by
  unfold outbound
  rw [← indexOf_eq_none]
  cases h : indexOf s.stat x <;> simp [eq_comm]

theorem inbound_eq_ok {s : State} {r : Rotor} {x y : Symbol} :
    inbound s r x = .ok y ↔ Maps (s.scr r) s.stat x y := by
  unfold inbound
  cases h : indexOf (s.scr r) x with
  | none => simpa using fun i hi _ => absurd hi ((indexOf_eq_none _ _).1 h i)
  | some i =>
    have hi := (indexOf_eq_some _ _ _).1 h
    simp only [Except.ok.injEq]
    exact ⟨fun e => ⟨i, hi, e.symm⟩, fun ⟨j, hj, e⟩ => by rw [e, FirstAt_unique hj hi]⟩

theorem inbound_eq_error {s : State} {r : Rotor} {x : Symbol} {m : Miss} :
    inbound s r x = .error m ↔ Absent (s.scr r) x ∧ m = ⟨.inbound r, x⟩ := by
  unfold inbound
  rw [← indexOf_eq_none]
  cases h : indexOf (s.scr r) x <;> simp [eq_comm]

/-- `mate` is the pairing of R157. -/
theorem mate_spec (i : Fin 94) :
    (i.val % 2 = 0 → (mate i).val = i.val + 1) ∧ (i.val % 2 = 1 → (mate i).val + 1 = i.val) := by
  unfold mate
  constructor <;> intro h
  · rw [dif_pos h]
  · rw [dif_neg (by omega)]
    show i.val - 1 + 1 = i.val
    omega

/-- A pair's other index is itself paired back, and is another index (R157, R166). -/
theorem mate_mate (i : Fin 94) : mate (mate i) = i ∧ mate i ≠ i := by
  have h := mate_spec i
  have h' := mate_spec (mate i)
  constructor
  · apply Fin.ext; omega
  · intro e; rw [Fin.ext_iff] at e; omega

theorem reflect_eq_ok {s : State} {x y : Symbol} : reflect s x = .ok y ↔ Reflects s.refl x y := by
  unfold reflect
  cases h : indexOf s.refl x with
  | none => simpa using fun i hi _ _ _ => absurd hi ((indexOf_eq_none _ _).1 h i)
  | some i =>
    have hi := (indexOf_eq_some _ _ _).1 h
    have hm := mate_spec i
    simp only [Except.ok.injEq]
    constructor
    · exact fun e => ⟨i, mate i, hi, e.symm, hm.1, hm.2⟩
    · rintro ⟨k, j, hk, e, h0, h1⟩
      obtain rfl := FirstAt_unique hk hi
      have : mate k = j := by
        apply Fin.ext
        omega
      subst this
      exact e.symm

theorem reflect_eq_error {s : State} {x : Symbol} {m : Miss} :
    reflect s x = .error m ↔ Absent s.refl x ∧ m = ⟨.reflector, x⟩ := by
  unfold reflect
  rw [← indexOf_eq_none]
  cases h : indexOf s.refl x <;> simp [eq_comm]

/-- A pipeline of lookups that answers. -/
theorem bind_eq_ok {ε α β : Type} {x : Except ε α} {f : α → Except ε β} {b : β} :
    x >>= f = .ok b ↔ ∃ a, x = .ok a ∧ f a = .ok b := by cases x <;> simp [bind, Except.bind]

/-- A pipeline of lookups that fails. -/
theorem bind_eq_error {ε α β : Type} {x : Except ε α} {f : α → Except ε β} {e : ε} :
    x >>= f = .error e ↔ x = .error e ∨ ∃ a, x = .ok a ∧ f a = .error e := by cases x <;> simp [bind, Except.bind]

/-- The seven lookups answer `y` exactly where `Yields` says so (R161). -/
theorem substitute_eq_ok {s : State} {x y : Symbol} :
    substitute s x = .ok y ↔ Yields s.stat s.refl s.scr1 s.scr2 s.scr3 x y := by
  simp only [substitute, bind_eq_ok, outbound_eq_ok, inbound_eq_ok, reflect_eq_ok, scr_r1, scr_r2, scr_r3, Yields]
  constructor
  · rintro ⟨a, ha, b, hb, c, hc, d, hd, e, he, f, hf, hy⟩
    exact ⟨a, b, c, d, e, f, ha, hb, hc, hd, he, hf, hy⟩
  · rintro ⟨a, b, c, d, e, f, ha, hb, hc, hd, he, hf, hy⟩
    exact ⟨a, ha, b, hb, c, hc, d, hd, e, he, f, hf, hy⟩

/-- The seven lookups fail with `m` exactly where `Misses` says so (R150, R161). -/
theorem substitute_eq_error {s : State} {x : Symbol} {m : Miss} :
    substitute s x = .error m ↔ Misses s.stat s.refl s.scr1 s.scr2 s.scr3 x m.site m.sym := by
  simp only [substitute, bind_eq_error, outbound_eq_ok, inbound_eq_ok, reflect_eq_ok, outbound_eq_error,
    inbound_eq_error, reflect_eq_error, scr_r1, scr_r2, scr_r3]
  constructor
  · rintro (⟨h, rfl⟩ | ⟨a, ha, ⟨h, rfl⟩ | ⟨b, hb, ⟨h, rfl⟩ | ⟨c, hc, ⟨h, rfl⟩ | ⟨d, hd, ⟨h, rfl⟩ |
      ⟨e, he, ⟨h, rfl⟩ | ⟨f, hf, h, rfl⟩⟩⟩⟩⟩⟩)
    exacts [.out1 h, .out2 ha h, .out3 ha hb h, .refl ha hb hc h, .in3 ha hb hc hd h, .in2 ha hb hc hd he h,
      .in1 ha hb hc hd he hf h]
  · obtain ⟨site, sym⟩ := m
    intro h
    cases h with
    | out1 h => exact .inl ⟨h, rfl⟩
    | out2 ha h => exact .inr ⟨_, ha, .inl ⟨h, rfl⟩⟩
    | out3 ha hb h => exact .inr ⟨_, ha, .inr ⟨_, hb, .inl ⟨h, rfl⟩⟩⟩
    | refl ha hb hc h => exact .inr ⟨_, ha, .inr ⟨_, hb, .inr ⟨_, hc, .inl ⟨h, rfl⟩⟩⟩⟩
    | in3 ha hb hc hd h => exact .inr ⟨_, ha, .inr ⟨_, hb, .inr ⟨_, hc, .inr ⟨_, hd, .inl ⟨h, rfl⟩⟩⟩⟩⟩
    | in2 ha hb hc hd he h =>
      exact .inr ⟨_, ha, .inr ⟨_, hb, .inr ⟨_, hc, .inr ⟨_, hd, .inr ⟨_, he, .inl ⟨h, rfl⟩⟩⟩⟩⟩⟩
    | in1 ha hb hc hd he hf h =>
      exact .inr ⟨_, ha, .inr ⟨_, hb, .inr ⟨_, hc, .inr ⟨_, hd, .inr ⟨_, he, .inr ⟨_, hf, h, rfl⟩⟩⟩⟩⟩⟩

/-- A failed lookup of an iteration has a site of its own (R223). -/
theorem substitute_error_site {s : State} {x : Symbol} {m : Miss} (h : substitute s x = .error m) :
    m.site ≠ .noLookup := by
  have := substitute_eq_error.1 h
  intro e
  rw [e] at this
  cases this

/-- What the loop of DECODE_MSG writes, whether it fails or not (R163, R225). -/
theorem decodeLoop_frame (ks : List (Fin 39)) (s : State) :
    (decodeLoop ks s).1 = { s with
      scr1 := (decodeLoop ks s).1.scr1, scr2 := (decodeLoop ks s).1.scr2, scr3 := (decodeLoop ks s).1.scr3,
      plain := (decodeLoop ks s).1.plain, outCount := (decodeLoop ks s).1.outCount } := by
  induction ks generalizing s with
  | nil => rfl
  | cons k ks ih =>
    simp only [decodeLoop]
    cases substitute (stepRotors s) s.cmsg[k] with
    | error m => simp [stepRotors_eq]
    | ok y =>
      simp only
      rw [ih]
      simp [stepRotors_eq]

/-- A failing loop fails at a site of its own. -/
theorem decodeLoop_site {ks : List (Fin 39)} {s : State} {m : Miss} (h : (decodeLoop ks s).2 = some m) :
    m.site ≠ .noLookup := by
  induction ks generalizing s with
  | nil => simp [decodeLoop] at h
  | cons k ks ih =>
    simp only [decodeLoop] at h
    cases hs : substitute (stepRotors s) s.cmsg[k] with
    | error n =>
      rw [hs] at h
      exact Option.some.inj h ▸ substitute_error_site hs
    | ok y =>
      rw [hs] at h
      exact ih h

end Sys2Proof.Machine
end

