-- ==== Sys2Proof/Laws/Encoding.lean ====
section
/-! SUPPORT. A command word and its fields determine each other (30_encoding.md R70). -/

namespace Sys2Proof

theorem fieldsOf_word (f : CmdFields) : fieldsOf f.word = f := by
  obtain ⟨op, sel, d⟩ := f
  simp only [fieldsOf, CmdFields.word, CmdFields.mk.injEq]
  refine ⟨?_, ?_, ?_⟩ <;> apply BitVec.eq_of_getLsbD_eq <;> intro j hj <;>
    simp only [BitVec.getLsbD_extractLsb', BitVec.getLsbD_append, hj, decide_true, Bool.true_and]
  · rw [if_neg (by omega), if_neg (by omega), show 12 + j - 8 - 4 = j by omega]
  · rw [if_neg (by omega), if_pos (by omega), show 8 + j - 8 = j by omega]
  · rw [if_pos (by omega), Nat.zero_add]

theorem word_fieldsOf (w : Word) : (fieldsOf w).word = w := by
  apply BitVec.eq_of_getLsbD_eq
  intro j hj
  simp only [fieldsOf, CmdFields.word, BitVec.getLsbD_extractLsb', BitVec.getLsbD_append]
  split
  · simp_all
  · split
    · simp_all [show 8 + (j - 8) = j by omega]
    · rw [show 12 + (j - 8 - 4) = j by omega, decide_eq_true (by omega), Bool.true_and]

end Sys2Proof
end

