-- ==== Sys2Proof/Laws/Memory.lean ====
section
/-! SUPPORT. The capture buffer: reading after writing, and the canonical form that every operation keeps. -/

namespace Sys2Proof.Machine

/-- The canonical form, cell by cell. -/
theorem wf_nil : Memory.wf [] = true := rfl

theorem wf_cons (c : Host.Cell) (m : Memory) :
    Memory.wf (c :: m) = true ↔
      (∀ d ∈ m, c.1 < d.1) ∧ c.1 < 514 ∧ c.2 ≠ Memory.unlisted ∧ Memory.wf m = true := by
  simp only [Memory.wf, List.map_cons, List.pairwise_cons, List.mem_map, List.all_cons, Bool.and_eq_true,
    decide_eq_true_eq, bne_iff_ne, ne_eq]
  constructor
  · rintro ⟨⟨h1, h2⟩, ⟨h3, h4⟩, h5⟩
    exact ⟨fun d hd => h1 d.1 ⟨d, hd, rfl⟩, h3, h4, h2, h5⟩
  · rintro ⟨h1, h2, h3, h4, h5⟩
    exact ⟨⟨fun a ⟨d, hd, e⟩ => e ▸ h1 d hd, h4⟩, ⟨h2, h3⟩, h5⟩

/-- An index below every listed one is unlisted. -/
theorem read_of_lt (m : Memory) (a : Nat) (h : ∀ d ∈ m, a < d.1) : m.read a = Memory.unlisted := by
  induction m with
  | nil => rfl
  | cons c m ih =>
    have := h c (by simp)
    simp only [Memory.read, if_neg (show ¬a = c.1 by omega)]
    exact ih fun d hd => h d (by simp [hd])

/-- A write keeps lower bounds on the indexes. -/
theorem lt_of_mem_write (m : Memory) (b a : Nat) (v : Byte) (hb : ∀ d ∈ m, b < d.1) (h : b < a) :
    ∀ d ∈ m.write a v, b < d.1 := by
  induction m with
  | nil => simp only [Memory.write]; split <;> simp [h]
  | cons c m ih =>
    have hc := hb c (by simp)
    have hm : ∀ d ∈ m, b < d.1 := fun d hd => hb d (by simp [hd])
    simp only [Memory.write]
    split
    · split
      · exact hb
      · intro d hd
        rcases List.mem_cons.1 hd with rfl | hd
        exacts [h, hb d hd]
    · split
      · split
        · exact hm
        · intro d hd
          rcases List.mem_cons.1 hd with rfl | hd
          exacts [h, hm d hd]
      · intro d hd
        rcases List.mem_cons.1 hd with rfl | hd
        exacts [hc, ih hm d hd]

/-- A cell after a write is the written one or was there before. -/
theorem mem_write (m : Memory) (a : Nat) (v : Byte) (c : Host.Cell) (h : c ∈ m.write a v) : c = (a, v) ∨ c ∈ m := by
  induction m with
  | nil => simp only [Memory.write] at h; split at h <;> simp_all
  | cons d m ih =>
    simp only [Memory.write] at h
    split at h
    · split at h <;> simp_all
    · split at h
      · split at h
        · exact .inr (by simp [h])
        · rcases List.mem_cons.1 h with h | h
          exacts [.inl h, .inr (by simp [h])]
      · rcases List.mem_cons.1 h with h | h
        · exact .inr (by simp [h])
        · exact (ih h).imp_right fun h => by simp [h]

/-- A write keeps the canonical form. -/
theorem wf_write (m : Memory) (a : Nat) (v : Byte) (ha : a < 514) (hm : m.wf = true) : (m.write a v).wf = true := by
  induction m with
  | nil =>
    simp only [Memory.write]
    split
    · rfl
    · exact (wf_cons _ _).2 ⟨by simp, ha, by assumption, rfl⟩
  | cons c m ih =>
    obtain ⟨h1, h2, h3, h4⟩ := (wf_cons c m).1 hm
    simp only [Memory.write]
    split
    · split
      · exact hm
      · refine (wf_cons _ _).2 ⟨fun d hd => ?_, ha, by assumption, hm⟩
        rcases List.mem_cons.1 hd with rfl | hd
        · assumption
        · have := h1 d hd; omega
    · split
      · rename_i e
        split
        · exact h4
        · exact (wf_cons _ _).2 ⟨fun d hd => e ▸ h1 d hd, ha, by assumption, h4⟩
      · exact (wf_cons _ _).2 ⟨lt_of_mem_write m c.1 a v h1 (by omega), h2, h3, ih h4⟩

/-- Reading after a write to canonical memory: the written value at its index, what was there elsewhere. -/
theorem read_write (m : Memory) (a b : Nat) (v : Byte) (hm : m.wf = true) :
    (m.write a v).read b = if b = a then v else m.read b := by
  induction m with
  | nil =>
    simp only [Memory.write]
    split <;> simp only [Memory.read]
    all_goals split <;> simp_all
  | cons c m ih =>
    obtain ⟨h1, h2, h3, h4⟩ := (wf_cons c m).1 hm
    have ih := ih h4
    simp only [Memory.write]
    split
    · rename_i hlt
      have hu : Memory.read (c :: m) a = Memory.unlisted := by
        refine read_of_lt _ _ fun d hd => ?_
        rcases List.mem_cons.1 hd with rfl | hd
        · exact hlt
        · have := h1 d hd; omega
      split
      · split <;> simp_all
      · simp only [Memory.read]
    · split
      · rename_i e
        subst e
        split
        · rename_i hv
          by_cases hb : b = c.1
          · subst hb
            rw [if_pos rfl, hv]
            exact read_of_lt m _ h1
          · simp [Memory.read, hb]
        · by_cases hb : b = c.1 <;> simp [Memory.read, hb]
      · rename_i hne
        by_cases hb : b = c.1
        · subst hb
          simp [Memory.read, show ¬c.1 = a by omega]
        · simp only [Memory.read, if_neg hb, ih]

/-- The reset state's memory is canonical. -/
theorem wf_reset : State.reset.payload.wf = true := rfl

/-- `MemWrite` keeps the canonical form. -/
theorem wf_memWrite (i : Fin 514) (v : Byte) (s : State) (h : s.payload.wf = true) :
    (memWrite i v s).payload.wf = true := wf_write _ _ _ i.isLt h

/-- RESET_STATE leaves canonical memory. -/
theorem wf_resetState (s : State) : (resetState s).payload.wf = true := rfl

end Sys2Proof.Machine
end

