-- ==== Sys2Proof/Laws/Exec.lean ====
section
/-! SUPPORT. What a command can do, said once: every command and every illegal word has one of the effects below. -/

namespace Sys2Proof.Machine

/-! ### The gate and the checks -/

theorem gated_of_faulted {s : State} (h : s.engState = .faulted) (body : State → State) :
    gated body s = .next (answerFaulted s) := by simp [gated, h]

theorem gated_of_not_faulted {s : State} (h : s.engState ≠ .faulted) (body : State → State) :
    gated body s = .next (body s) := by simp [gated, h]

theorem whenReady_of_idle {s : State} (h : s.engState = .idle) (body : State → State) :
    whenReady body s = raisePlain .notReady s := by simp [whenReady, h]

theorem whenReady_of_ready {s : State} (h : s.engState = .ready) (body : State → State) :
    whenReady body s = body s := by simp [whenReady, h]

/-- A READ of one entry answers it or raises RANGE (R191). -/
theorem readEntry_cases (table : List Byte) (i : Byte) (s : State) :
    (∃ v, table[i.toNat]? = some v ∧ readEntry table i s = okv v s) ∨
      (table.length ≤ i.toNat ∧ readEntry table i s = raisePlain .range s) := by
  unfold readEntry
  cases h : table[i.toNat]? with
  | some v => exact .inl ⟨v, rfl, rfl⟩
  | none => exact .inr ⟨by simpa using h, rfl⟩

/-! ### The extractor and LOAD -/

/-- What the capture writes (R104). -/
theorem capture_frame (p : Byte) (s : State) :
    capture p s = { s with pktCount := (capture p s).pktCount, payload := (capture p s).payload } := by
  unfold capture
  split
  · by_cases h : s.pktCount.toNat < Config.headerSkip <;> simp [h, memWrite]
  · rfl

/-- The start steps write scrambled wheels only, and a failure has the site of its rotor (R134). -/
theorem startSteps_frame (rs : List Rotor) (s : State) :
    (startSteps rs s).1 = { s with
      scr1 := (startSteps rs s).1.scr1, scr2 := (startSteps rs s).1.scr2, scr3 := (startSteps rs s).1.scr3 } := by
  induction rs generalizing s with
  | nil => rfl
  | cons r rs ih =>
    simp only [startSteps]
    cases stepTo (s.scr r) (s.start r) with
    | none => rfl
    | some w =>
      simp only
      rw [ih]
      simp

theorem startSteps_site {rs : List Rotor} {s : State} {m : Miss} (h : (startSteps rs s).2 = some m) :
    m.site ≠ .noLookup := by
  induction rs generalizing s with
  | nil => simp [startSteps] at h
  | cons r rs ih =>
    simp only [startSteps] at h
    cases hs : stepTo (s.scr r) (s.start r) with
    | none =>
      rw [hs] at h
      exact Option.some.inj h ▸ (by simp)
    | some w =>
      rw [hs] at h
      exact ih h

/-! ### The effects -/

/-- The effects a word can have on the state. -/
inductive Effect (s : State) : State → Prop
  /-- A response and nothing else: NOP, STATUS, a READ that succeeds, and any word in FAULTED but SOFT_RESET. -/
  | answered (err dv : Bool) (v : Byte) : Effect s (respond err dv v s)
  /-- An error that is not a failed lookup. -/
  | raised (e : ErrCode) : s.engState ≠ .faulted → e ≠ .noError → e ≠ .consistency → Effect s (raisePlain e s)
  /-- EXT_BYTE. -/
  | extByte (d : Byte) : s.engState ≠ .faulted → Effect s (extByteBody d s)
  /-- EXT_END. -/
  | extEnd : s.engState ≠ .faulted → Effect s (extEndBody s)
  /-- A LOAD that succeeds. -/
  | loaded (t : State) : s.engState ≠ .faulted → 518 ≤ s.pktCount.toNat →
      startSteps [.r1, .r2, .r3] (sliceFields s) = (t, none) →
      Effect s (ok { t with outCount := 0, engState := .ready })
  /-- A LOAD whose start symbol is absent. -/
  | loadMissed (t : State) (m : Miss) : s.engState ≠ .faulted → 518 ≤ s.pktCount.toNat →
      startSteps [.r1, .r2, .r3] (sliceFields s) = (t, some m) → Effect s (raiseMiss m t)
  /-- A CIPHER that answers. -/
  | ciphered (d y : Symbol) : s.engState = .ready → substitute (stepRotors s) d = .ok y →
      Effect s (okv y (stepRotors s))
  /-- A CIPHER whose lookup fails. -/
  | cipherMissed (d : Symbol) (m : Miss) : s.engState = .ready → substitute (stepRotors s) d = .error m →
      Effect s (raiseMiss m (stepRotors s))
  /-- A DECODE_MSG that completes. -/
  | decoded (t : State) : s.engState = .ready →
      decodeLoop (List.finRange 39) { s with outCount := 0 } = (t, none) → Effect s (ok t)
  /-- A DECODE_MSG whose lookup fails. -/
  | decodeMissed (t : State) (m : Miss) : s.engState = .ready →
      decodeLoop (List.finRange 39) { s with outCount := 0 } = (t, some m) → Effect s (raiseMiss m t)
  /-- SOFT_RESET. -/
  | reset : Effect s (ok (resetState s))

theorem gated_effect {s : State} {body : State → State} (h : s.engState ≠ .faulted → Effect s (body s)) :
    ∃ t, gated body s = .next t ∧ Effect s t := by
  by_cases hf : s.engState = .faulted
  · exact ⟨_, gated_of_faulted hf body, .answered ..⟩
  · exact ⟨_, gated_of_not_faulted hf body, h hf⟩

theorem whenReady_effect {s : State} {body : State → State} (hf : s.engState ≠ .faulted)
    (h : s.engState = .ready → Effect s (body s)) : Effect s (whenReady body s) := by
  cases hs : s.engState with
  | idle => exact whenReady_of_idle hs body ▸ .raised _ hf (by simp) (by simp)
  | ready => exact whenReady_of_ready hs body ▸ h hs
  | faulted => exact absurd hs hf

theorem readEntry_effect {s : State} (hf : s.engState ≠ .faulted) (table : List Byte) (i : Byte) :
    Effect s (readEntry table i s) := by
  rcases readEntry_cases table i s with ⟨v, -, e⟩ | ⟨-, e⟩
  · exact e ▸ .answered ..
  · exact e ▸ .raised _ hf (by simp) (by simp)

theorem readTable_effect (table : State → List Byte) (i : Byte) (s : State) :
    ∃ t, readTable table i s = .next t ∧ Effect s t :=
  gated_effect fun hf => whenReady_effect hf fun _ => readEntry_effect hf (table s) i

theorem loadBody_effect {s : State} (hf : s.engState ≠ .faulted) : Effect s (loadBody s) := by
  unfold loadBody
  split
  · exact .raised _ hf (by simp) (by simp)
  · rename_i h
    have h : 518 ≤ s.pktCount.toNat := Nat.not_lt.1 h
    cases hr : startSteps [.r1, .r2, .r3] (sliceFields s) with
    | mk t o =>
      cases o with
      | none => exact .loaded t hf h hr
      | some m => exact .loadMissed t m hf h hr

theorem cipherBody_effect {s : State} (d : Symbol) (h : s.engState = .ready) : Effect s (cipherBody d s) := by
  unfold cipherBody
  cases hr : substitute (stepRotors s) d with
  | ok y => exact .ciphered d y h hr
  | error m => exact .cipherMissed d m h hr

theorem decodeMsgBody_effect {s : State} (h : s.engState = .ready) : Effect s (decodeMsgBody s) := by
  unfold decodeMsgBody
  cases hr : decodeLoop (List.finRange 39) { s with outCount := 0 } with
  | mk t o =>
    cases o with
    | none => exact .decoded t h hr
    | some m => exact .decodeMissed t m h hr

/-- Every command has one of the effects (R11). -/
theorem exec_effect (i : Instr) (s : State) : ∃ t, exec i s = .next t ∧ Effect s t := by
  cases i with
  | nop => exact ⟨_, rfl, .answered ..⟩
  | extByte d => exact gated_effect (.extByte d)
  | extEnd => exact gated_effect .extEnd
  | load => exact gated_effect loadBody_effect
  | cipher d => exact gated_effect fun hf => whenReady_effect hf (cipherBody_effect d)
  | decodeMsg => exact gated_effect fun hf => whenReady_effect hf decodeMsgBody_effect
  | readStat i => exact readTable_effect _ i s
  | readRefl i => exact readTable_effect _ i s
  | readScr1 i => exact readTable_effect _ i s
  | readScr2 i => exact readTable_effect _ i s
  | readScr3 i => exact readTable_effect _ i s
  | readNotch i => exact readTable_effect _ i s
  | readStart i => exact readTable_effect _ i s
  | readCmsg i => exact readTable_effect _ i s
  | readPlain i => exact readTable_effect _ i s
  | readRegs i =>
    by_cases h : i.toNat < 8
    · have e : exec (.readRegs i) s = .next (readEntry (regsTable s) i s) := by simp [exec, execReadRegs, h]
      refine ⟨_, e, ?_⟩
      rcases readEntry_cases (regsTable s) i s with ⟨v, -, e⟩ | ⟨hl, -⟩
      · exact e ▸ .answered ..
      · exact absurd h (Nat.not_lt.2 hl)
    · have e : exec (.readRegs i) s = gated (raisePlain .range) s := by simp [exec, execReadRegs, h]
      rw [e]
      exact gated_effect fun hf => .raised _ hf (by simp) (by simp)
  | status => exact ⟨_, rfl, .answered ..⟩
  | softReset => exact ⟨_, rfl, .reset⟩

/-- Every word, legal or illegal, has one of the effects. -/
theorem runWord_effect (w : Word) (s : State) : ∃ t, runWord w s = .next t ∧ Effect s t := by
  unfold runWord
  cases decode w with
  | ok i => exact exec_effect i s
  | error _ => exact gated_effect fun hf => .raised _ hf (by simp) (by simp)

/-- Every effect leaves one response word. -/
theorem Effect_rsp {s t : State} (h : Effect s t) : ∃ r, t.rsp = some r := by
  cases h with
  | extByte d => unfold extByteBody; split <;> exact ⟨_, rfl⟩
  | _ => exact ⟨_, rfl⟩

/-- A step is the interface's own work or a word's effect. -/
theorem step_cases (s : State) :
    (s.inputs = [] ∧ step s = .next s) ∨
    ∃ p rest, s.inputs = p :: rest ∧
      ((p.rstN = false ∧ step s = .next (pinReset { s with inputs := rest })) ∨
       (p.rstN = true ∧ ∃ r, s.rsp = some r ∧ p.rspReady = true ∧
          step s = .next (takeResponse r { s with inputs := rest })) ∨
       (p.rstN = true ∧ step s = .next { s with inputs := rest }) ∨
       (p.rstN = true ∧ s.rsp = none ∧ ∃ w, p.cmd = some w ∧ step s = runWord w { s with inputs := rest })) := by
  cases hi : s.inputs with
  | nil => exact .inl ⟨rfl, by simp [step, portAction, hi]⟩
  | cons p rest =>
    refine .inr ⟨p, rest, rfl, ?_⟩
    cases hr : p.rstN with
    | false => exact .inl ⟨rfl, by simp [step, portAction, hi, hr]⟩
    | true =>
      cases hs : s.rsp with
      | some r =>
        cases hp : p.rspReady with
        | true => exact .inr (.inl ⟨rfl, r, rfl, rfl, by simp [step, portAction, hi, hr, hs, hp, rspPort]⟩)
        | false => exact .inr (.inr (.inl ⟨rfl, by simp [step, portAction, hi, hr, hs, hp, rspPort]⟩))
      | none =>
        cases hc : p.cmd with
        | none => exact .inr (.inr (.inl ⟨rfl, by simp [step, portAction, hi, hr, hs, hc, rspPort]⟩))
        | some w =>
          exact .inr (.inr (.inr ⟨rfl, rfl, w, rfl, by simp [step, portAction, hi, hr, hs, hc, rspPort, cmdReady]⟩))

end Sys2Proof.Machine
end

