-- ==== Sys2Proof/Laws/PerInstr.lean ====
section
/-! SUPPORT. The family LegalWord: a command's word lies in its row of spec/opcode_table.json (match and mask), and the
word's fields are legal (30_encoding.md R73, R74). -/

namespace Sys2Proof.Laws

/-- The `match` and `mask` columns of the opcode table. -/
def tableRow : Instr → Word × Word
  | .nop => (0x0000, 0xFFFF)
  | .extByte _ => (0x1000, 0xFF00)
  | .extEnd => (0x2000, 0xFFFF)
  | .load => (0x3000, 0xFFFF)
  | .cipher _ => (0x4000, 0xFF00)
  | .decodeMsg => (0x5000, 0xFFFF)
  | .readStat _ => (0x6000, 0xFF00)
  | .readRefl _ => (0x6100, 0xFF00)
  | .readScr1 _ => (0x6200, 0xFF00)
  | .readScr2 _ => (0x6300, 0xFF00)
  | .readScr3 _ => (0x6400, 0xFF00)
  | .readNotch _ => (0x6500, 0xFF00)
  | .readStart _ => (0x6600, 0xFF00)
  | .readCmsg _ => (0x6700, 0xFF00)
  | .readPlain _ => (0x6800, 0xFF00)
  | .readRegs _ => (0x6900, 0xFF00)
  | .status => (0x7000, 0xFFFF)
  | .softReset => (0xF000, 0xFFFF)

/-- The word is in its table row and its fields are legal. -/
abbrev LegalWord.Statement (i : Instr) : Prop :=
  encode i &&& (tableRow i).2 = (tableRow i).1 ∧ i.fields.WellFormed = true

/-- A word with an operand keeps its upper byte under the table's mask. -/
theorem operand_row (op sel : BitVec 4) (d : Byte) :
    CmdFields.word ⟨op, sel, d⟩ &&& 0xFF00#16 = CmdFields.word ⟨op, sel, 0⟩ := by
  apply BitVec.eq_of_getLsbD_eq
  intro j hj
  simp only [CmdFields.word, BitVec.getLsbD_and, BitVec.getLsbD_append]
  have : ∀ j < 16, (0xFF00#16).getLsbD j = decide (8 ≤ j) := by decide
  rw [this j hj]
  by_cases h : j < 8
  · simp [h, show ¬8 ≤ j by omega]
  · simp [h, show 8 ≤ j by omega]

theorem LegalWord.nop : LegalWord.Statement .nop := by decide
theorem LegalWord.extByte (d : Byte) : LegalWord.Statement (.extByte d) := ⟨(operand_row 1 0 d).trans rfl, rfl⟩
theorem LegalWord.extEnd : LegalWord.Statement .extEnd := by decide
theorem LegalWord.load : LegalWord.Statement .load := by decide
theorem LegalWord.cipher (d : Symbol) : LegalWord.Statement (.cipher d) := ⟨(operand_row 4 0 d).trans rfl, rfl⟩
theorem LegalWord.decodeMsg : LegalWord.Statement .decodeMsg := by decide
theorem LegalWord.readStat (i : Byte) : LegalWord.Statement (.readStat i) := ⟨(operand_row 6 0 i).trans rfl, rfl⟩
theorem LegalWord.readRefl (i : Byte) : LegalWord.Statement (.readRefl i) := ⟨(operand_row 6 1 i).trans rfl, rfl⟩
theorem LegalWord.readScr1 (i : Byte) : LegalWord.Statement (.readScr1 i) := ⟨(operand_row 6 2 i).trans rfl, rfl⟩
theorem LegalWord.readScr2 (i : Byte) : LegalWord.Statement (.readScr2 i) := ⟨(operand_row 6 3 i).trans rfl, rfl⟩
theorem LegalWord.readScr3 (i : Byte) : LegalWord.Statement (.readScr3 i) := ⟨(operand_row 6 4 i).trans rfl, rfl⟩
theorem LegalWord.readNotch (i : Byte) : LegalWord.Statement (.readNotch i) := ⟨(operand_row 6 5 i).trans rfl, rfl⟩
theorem LegalWord.readStart (i : Byte) : LegalWord.Statement (.readStart i) := ⟨(operand_row 6 6 i).trans rfl, rfl⟩
theorem LegalWord.readCmsg (i : Byte) : LegalWord.Statement (.readCmsg i) := ⟨(operand_row 6 7 i).trans rfl, rfl⟩
theorem LegalWord.readPlain (i : Byte) : LegalWord.Statement (.readPlain i) := ⟨(operand_row 6 8 i).trans rfl, rfl⟩
theorem LegalWord.readRegs (i : Byte) : LegalWord.Statement (.readRegs i) := ⟨(operand_row 6 9 i).trans rfl, rfl⟩
theorem LegalWord.status : LegalWord.Statement .status := by decide
theorem LegalWord.softReset : LegalWord.Statement .softReset := by decide

end Sys2Proof.Laws
end

