-- ==== Sys2Proof/Laws/Response.lean ====
section
/-! SUPPORT. The response words (00_scope.md R10; 30_encoding.md R71; 60_exceptions.md R224) as numbers. -/

namespace Sys2Proof.Machine

/-- `ok(v)` is `0x4000 OR v` (R10). -/
theorem responseWord_ok (v : Byte) : responseWord false true v = okWord v := by
  apply BitVec.eq_of_getLsbD_eq
  intro j hj
  have hbit : ∀ j < 16, (0x4000#16).getLsbD j = decide (j = 14) := by decide
  simp only [responseWord, okWord, BitVec.getLsbD_append, BitVec.getLsbD_or, BitVec.getLsbD_setWidth, hbit j hj]
  by_cases h : j < 8
  · simp [h, hj, show j ≠ 14 by omega]
  · simp only [h, hj, BitVec.getLsbD_of_ge v j (by omega)]
    by_cases h2 : j = 14
    · subst h2; rfl
    · by_cases h3 : j = 15
      · subst h3; rfl
      · simp [h2, show j - 8 < 6 by omega]

/-- The answer to an error is `0x8000 OR code` (R224). -/
theorem responseWord_error (b : BitVec 3) :
    responseWord true false (b.setWidth 8) = 0x8000#16 ||| b.setWidth 16 := by
  revert b; decide

theorem ok_eq (s : State) : ok s = { s with rsp := some 0x0000 } := rfl

theorem okv_eq (v : Byte) (s : State) : okv v s = { s with rsp := some (okWord v) } := by
  simp [okv, respond, responseWord_ok]

theorem raisePlain_eq (e : ErrCode) (s : State) :
    raisePlain e s = Raised s e (0x8000#16 ||| e.bits.setWidth 16) := by
  simp [raisePlain, raise, respond, responseWord_error]

theorem raiseMiss_eq (m : Miss) (s : State) :
    raiseMiss m s = { s with
      errCode := .consistency, faultSite := m.site, faultSym := m.sym, engState := .faulted, rsp := some 0x8002 } := rfl

theorem answerFaulted_eq (s : State) :
    answerFaulted s = { s with rsp := some (0x8000#16 ||| s.errCode.bits.setWidth 16) } := by
  simp [answerFaulted, respond, responseWord_error]

end Sys2Proof.Machine
end

