-- ==== Sys2Proof/Machine/AsmText.lean ====
section
/-! DEFINITION. The text of the assembler (30_encoding.md R78, R79): one command a line, `;` starting a comment, operands
in decimal, in `0x` hexadecimal or as a quoted character. What R78 leaves open about blanks, quotes and
comments is log entry 9. -/

namespace Sys2Proof.Machine

/-- The parts of a line. -/
inductive Token where
  | name (cs : List Char)
  | quoted (c : Char)
  | comma
  | colon
  deriving DecidableEq, Repr

/-- The name read so far, if there is one; `acc` holds it backwards. -/
def flushName (acc : List Char) (rest : List Token) : List Token :=
  if acc.isEmpty then rest else .name acc.reverse :: rest

/-- A line's characters to its parts; `none` for a quote that is not closed after one character. DESIGN CHOICE, log entry 9:
between quotes every character stands for itself (a `;` there starts no comment, and `'''` is the quote), and no blank
need stand beside a quoted character (`CIPHER'A'` is `CIPHER 'A'`). -/
def tokenize (acc : List Char) : List Char → Option (List Token)
  | [] => some (flushName acc [])
  | '\'' :: c :: '\'' :: cs => (tokenize [] cs).map fun ts => flushName acc (.quoted c :: ts)
  | c :: cs =>
    if c = ';' then some (flushName acc [])
    else if c = '\'' then none
    else if c = ' ' ∨ c = '\t' then (tokenize [] cs).map (flushName acc)
    else if c = ',' then (tokenize [] cs).map fun ts => flushName acc (.comma :: ts)
    else if c = ':' then (tokenize [] cs).map fun ts => flushName acc (.colon :: ts)
    else tokenize (c :: acc) cs

/-- The value of a digit, below 16. -/
def digitValue (c : Char) : Option Nat :=
  if '0' ≤ c ∧ c ≤ '9' then some (c.toNat - 48)
  else if 'A' ≤ c ∧ c ≤ 'F' then some (c.toNat - 55)
  else if 'a' ≤ c ∧ c ≤ 'f' then some (c.toNat - 87)
  else none

/-- The digits of a number in a base, the first one highest. -/
def digits (base acc : Nat) : List Char → Option Nat
  | [] => some acc
  | c :: cs =>
    match digitValue c with
    | none => none
    | some v => if v < base then digits base (acc * base + v) cs else none

/-- A decimal or `0x` hexadecimal number. -/
def number : List Char → Option Nat
  | [] => none
  | ['0', 'x'] => none
  | '0' :: 'x' :: cs => digits 16 0 cs
  | cs => digits 10 0 cs

/-- One operand. -/
def operand : Token → Option Operand
  | .name cs => (number cs).map .num
  | .quoted c => some (.chr c)
  | .comma => none
  | .colon => none

/-- Operands with commas between them, up to the end of the line or a colon, and what follows the colon. -/
def operands : List Token → Option (List Operand × Option (List Token))
  | [] => none
  | [t] => (operand t).map fun o => ([o], none)
  | t :: .comma :: ts =>
    match operand t, operands ts with
    | some o, some (os, rest) => some (o :: os, rest)
    | _, _ => none
  | t :: .colon :: ts => (operand t).map fun o => ([o], some ts)
  | _ => none

/-- Operands that end the line. -/
def lastOperands (ts : List Token) : Option (List Operand) :=
  match operands ts with
  | some (os, none) => some os
  | _ => none

/-- The parts of a line to the line (R78, R79). -/
def parseTokens : List Token → Option AsmLine
  | [.name ['N', 'O', 'P']] => some .nop
  | [.name ['E', 'X', 'T', '_', 'B', 'Y', 'T', 'E'], t] => (operand t).map .extByte
  | [.name ['E', 'X', 'T', '_', 'E', 'N', 'D']] => some .extEnd
  | [.name ['L', 'O', 'A', 'D']] => some .load
  | [.name ['C', 'I', 'P', 'H', 'E', 'R'], t] => (operand t).map .cipher
  | [.name ['D', 'E', 'C', 'O', 'D', 'E', '_', 'M', 'S', 'G']] => some .decodeMsg
  | [.name ['R', 'E', 'A', 'D'], .name sel, .comma, t] => (operand t).map (.read (String.ofList sel))
  | [.name ['S', 'T', 'A', 'T', 'U', 'S']] => some .status
  | [.name ['S', 'O', 'F', 'T', '_', 'R', 'E', 'S', 'E', 'T']] => some .softReset
  | .name ['F', 'E', 'E', 'D', '_', 'R', 'A', 'W'] :: ts => (lastOperands ts).map .feedRaw
  | .name ['P', 'U', 'S', 'H', '_', 'P', 'A', 'C', 'K', 'E', 'D'] :: ts => (lastOperands ts).map .pushPacked
  | .name ['P', 'U', 'S', 'H', '_', 'I', 'M', 'A', 'G', 'E'] :: ts =>
    match operands ts with
    | some (header, some rest) => (lastOperands rest).map (.pushImage header)
    | _ => none
  | .name ['R', 'E', 'P'] :: .name n :: .colon :: ts =>
    match number n, parseTokens ts with
    | some n, some cmd => some (.rep n cmd)
    | _, _ => none
  | _ => none

/-- One line of text to its words: none for an assembly error, no word for a line with only blanks or a comment (R78). -/
def assembleText (text : List Char) : Option (List Word) :=
  match tokenize [] text with
  | none => none
  | some [] => some []
  | some ts => (parseTokens ts).bind assemble

/-- The lines of a text in order; an error in one is an error of the whole. -/
def assembleLines : List (List Char) → Option (List Word)
  | [] => some []
  | l :: ls =>
    match assembleText l, assembleLines ls with
    | some ws, some vs => some (ws ++ vs)
    | _, _ => none

end Sys2Proof.Machine
end

