-- ==== Sys2Proof/Tests/Slice0.lean ====
section
/-! SUPPORT. Tests against spec/95_test_vectors.md (the vector's id stands before each) and the worked examples of the
rules; the smoke test of WellFormed; and for every statement with hypotheses a state and operands that meet them. -/

namespace Sys2Proof.Tests

open Sys2Proof.Machine

/-! ### Small states -/

/-- `ID`, the identity wheel 33 to 126 (section "Standard payloads"). -/
def idWheel : Wheel := ⟨Config.alphabet.toArray, by simp [Config.alphabet]⟩

/-- `ID` with its last entry 33: 33 twice, 126 absent (V-R7, V-E3, V-E4). -/
def dupWheel : Wheel := idWheel.set 93 0x21

/-- The payload IDN with given start symbols, as the capture buffer holds it. -/
def idnPayload (t1 t2 t3 : Byte) : Memory :=
  (List.range 514).zip
    ((List.replicate 5 Config.alphabet).flatten ++ [0x7E, 0x7E, t1, t2, t3] ++ List.replicate 39 0x41)

/-- IDN captured, not loaded. -/
def captured (t1 t2 t3 : Byte) : State := { State.reset with pktCount := 518, payload := idnPayload t1 t2 t3 }

/-- IDN loaded, with given notches (IDZ has 0x20 twice). -/
def loaded (n1 n2 : Symbol) : State :=
  { State.reset with
    pktCount := 518, engState := .ready, stat := idWheel, refl := idWheel, scr1 := idWheel, scr2 := idWheel,
    scr3 := idWheel, notch1 := n1, notch2 := n2, start1 := 0x21, start2 := 0x21, start3 := 0x21,
    cmsg := Vector.replicate 39 0x41 }

/-- IDZ loaded. -/
def idz : State := loaded 0x20 0x20

/-- A state in FAULTED: ILLEGAL_CMD from reset (V-H3). -/
def faulted : State := { State.reset with engState := .faulted, errCode := .illegalCmd }

/-- IDZ loaded, with one ciphertext symbol outside the alphabet (V-E5). -/
def badMessage : State := { idz with cmsg := idz.cmsg.set 3 0x20 }

/-- One edge at which the host offers a word and is ready for a response. -/
def offer (w : Word) : PortInput := { rstN := true, cmd := some w, rspReady := true }

/-- The next state, if there is one. -/
def after : Host.Outcome State Fault Refusal → Option State
  | .next t => some t
  | .fault _ => none
  | .refused _ => none

/-- The response of the next state. -/
def answer (o : Host.Outcome State Fault Refusal) : Option Word := (after o).bind State.rsp

/-- A field of the next state. -/
def field {α : Type} (f : State → α) (o : Host.Outcome State Fault Refusal) : Option α := (after o).map f

/-! ### WellFormed refuses (R73, R74, R75, R78, R79) -/

theorem test_reserved_opcode : CmdFields.WellFormed ⟨8, 0, 0⟩ = false := by decide
theorem test_selector_not_zero : CmdFields.WellFormed ⟨3, 1, 0⟩ = false := by decide
theorem test_reserved_selector : CmdFields.WellFormed ⟨6, 10, 0⟩ = false := by decide
theorem test_operand_not_zero : CmdFields.WellFormed ⟨7, 0, 1⟩ = false := by decide
theorem test_operand_too_large : AsmLine.WellFormed (.cipher (.num 256)) = false := by decide
theorem test_unknown_selector : AsmLine.WellFormed (.read "SCR4" (.num 0)) = false := by decide
theorem test_empty_feed : AsmLine.WellFormed (.feedRaw []) = false := by decide
theorem test_empty_push : AsmLine.WellFormed (.pushPacked []) = false := by decide
theorem test_short_image : AsmLine.WellFormed (.pushImage [.num 0] []) = false := by decide
theorem test_rep_of_error : AsmLine.WellFormed (.rep 2 (.extByte (.num 300))) = false := by decide

/-! ### Decoding: words written out from R70, R73 and R74 as op, sel, d -/

theorem test_decode_nop : decode 0b0000000000000000 = .ok .nop := by decide
theorem test_decode_extByte : decode 0b0001000011111110 = .ok (.extByte 0xFE) := by decide
theorem test_decode_extEnd : decode 0b0010000000000000 = .ok .extEnd := by decide
theorem test_decode_load : decode 0b0011000000000000 = .ok .load := by decide
theorem test_decode_cipher : decode 0b0100000001000001 = .ok (.cipher 0x41) := by decide
theorem test_decode_decodeMsg : decode 0b0101000000000000 = .ok .decodeMsg := by decide
theorem test_decode_readStat : decode 0b0110000001011110 = .ok (.readStat 94) := by decide
theorem test_decode_readRefl : decode 0b0110000100100110 = .ok (.readRefl 38) := by decide
theorem test_decode_readScr1 : decode 0b0110001001011101 = .ok (.readScr1 93) := by decide
theorem test_decode_readScr2 : decode 0b0110001100000000 = .ok (.readScr2 0) := by decide
theorem test_decode_readScr3 : decode 0b0110010000000001 = .ok (.readScr3 1) := by decide
theorem test_decode_readNotch : decode 0b0110010100000001 = .ok (.readNotch 1) := by decide
theorem test_decode_readStart : decode 0b0110011000000010 = .ok (.readStart 2) := by decide
theorem test_decode_readCmsg : decode 0b0110011100100111 = .ok (.readCmsg 39) := by decide
theorem test_decode_readPlain : decode 0b0110100000100110 = .ok (.readPlain 38) := by decide
theorem test_decode_readRegs : decode 0b0110100100000111 = .ok (.readRegs 7) := by decide
theorem test_decode_status : decode 0b0111000000000000 = .ok .status := by decide
theorem test_decode_softReset : decode 0b1111000000000000 = .ok .softReset := by decide
theorem test_decode_reserved_opcode : decode 0xE000 = .error .reservedOpcode := by decide
theorem test_decode_reserved_selector : decode 0x6A00 = .error .reservedSelector := by decide
theorem test_decode_selector_not_zero : decode 0x4100 = .error .selectorNotZero := by decide
theorem test_decode_operand_not_zero : decode 0x0001 = .error .operandNotZero := by decide

/-! ### The assembler (R78, R79) -/

/-- R78: `READ REGS, 7` is 0x6907. -/
theorem test_assemble_read : assembleText ['R', 'E', 'A', 'D', ' ', 'R', 'E', 'G', 'S', ',', ' ', '7'] = some [0x6907] := by
  decide +kernel
/-- R78: a quoted character and a comment. -/
theorem test_assemble_cipher : assembleText ['C', 'I', 'P', 'H', 'E', 'R', ' ', '\'', 'A', '\'', ';', 'k'] = some [0x4041] := by
  decide +kernel
/-- P4: the raw stream of 0x42 begins 0, 1, 0, 0, 0, 0, 1, 0. -/
theorem test_push_packed :
    assemble (.pushPacked [.num 0x42]) =
      some [0x1000, 0x1001, 0x1000, 0x1000, 0x1000, 0x1000, 0x1001, 0x1000] := by decide

/-! ### The extractor -/

/-- V-X5 (R105's example): the eighth bit of 1, 0, 0, 0, 0, 0, 0, 1 answers 0x4081. -/
theorem test_extByte_completes :
    answer (exec (.extByte 0x01) { State.reset with extAcc := 0x80, extCnt := 7 }) = some 0x4081 := by decide
/-- V-X3: the ninth raw byte waits in bit 7 of the accumulator. -/
theorem test_extByte_holds : field State.extAcc (exec (.extByte 0x01) State.reset) = some 0x80 := by decide
/-- R104: packed byte 4 lands at `payload[0]`, packed byte 3 nowhere. -/
theorem test_capture :
    field State.payload (exec (.extByte 0) { State.reset with extAcc := 0x55, extCnt := 7, pktCount := 4 }) =
      some [(0, 0x54 ||| 0x01)] := by decide
theorem test_header_skip :
    field State.payload (exec (.extByte 0) { State.reset with extAcc := 0x54, extCnt := 7, pktCount := 3 }) =
      some [] := by decide
/-- V-X8b: the 519th packed byte is not counted. -/
theorem test_capture_saturates :
    field State.pktCount (exec (.extByte 0) { State.reset with extCnt := 7, pktCount := 518 }) = some 518 := by decide
/-- V-X7: EXT_END drops the seven ones. -/
theorem test_extEnd :
    field (fun t => (t.extAcc, t.extCnt)) (exec .extEnd { State.reset with extAcc := 0xFE, extCnt := 7 }) =
      some (0, 0) := by decide

/-! ### LOAD -/

/-- V-L4: the wheels after the start steps, and a copied entry. -/
theorem test_load :
    field (fun t => (t.scr1[0], t.scr1[93], t.scr2[93], t.scr3[0], t.scr3[93], t.refl[38]))
      (exec .load (captured 0x41 0x21 0x7E)) = some (0x41, 0x40, 0x7E, 0x7E, 0x7D, 0x47) := by decide +kernel
/-- V-L3b: rotor 1 is constructed first. -/
theorem test_load_start_missing :
    field (fun t => (t.rsp, t.faultSite, t.faultSym)) (exec .load (captured 0x20 0x20 0x21)) =
      some (some 0x8002, .start .r1, 0x20) := by decide +kernel
/-- V-L1: 517 packed bytes are too few. -/
theorem test_load_malformed : answer (exec .load { State.reset with pktCount := 517 }) = some 0x8001 := by decide

/-! ### CIPHER and DECODE_MSG -/

/-- R151's and R153's examples on `ID`. -/
theorem test_stepTo : (stepTo idWheel 0x41).map (fun w => (w[0], w[61], w[62], w[93])) = some (0x41, 0x7E, 0x21, 0x40) := by
  decide +kernel
theorem test_stepDefault : ((stepDefault idWheel)[0], (stepDefault idWheel)[1], (stepDefault idWheel)[93]) =
    (0x7E, 0x21, 0x7D) := by decide +kernel
/-- V-R1: the corrected scenario, `'A'` to `'@'`. -/
theorem test_cipher : answer (exec (.cipher 0x41) idz) = some 0x4040 := by decide +kernel
/-- V-R6, iteration 2: rotor 3 steps where rotor 2 stands at its notch. -/
theorem test_cipher_carry :
    field (fun t => (t.scr1[0], t.scr2[0], t.scr3[0]))
      (exec (.cipher 0x41) { loaded 0x7E 0x7E with scr1 := rotl idWheel 92, scr2 := rotl idWheel 93 }) =
      some (0x7C, 0x7E, 0x7E) := by decide +kernel
/-- V-D1: the 39 symbols. -/
theorem test_decodeMsg :
    field (fun t => t.plain.toList) (exec .decodeMsg idz) =
      some ((List.range 39).map fun k => if k % 2 = 0 then 0x40 else 0x42) := by decide +kernel
/-- V-E5: abort in iteration 3. -/
theorem test_decodeMsg_abort :
    field (fun t => (t.rsp, t.outCount, t.faultSite, t.faultSym)) (exec .decodeMsg badMessage) =
      some (some 0x8002, 3, .outbound .r1, 0x20) := by decide +kernel

/-! ### Host access -/

/-- V-H3: NOP in FAULTED. -/
theorem test_nop : answer (exec .nop faulted) = some 0x0000 := by decide
/-- V-L2: STATUS after LOAD; V-H3: STATUS in FAULTED. -/
theorem test_status : answer (exec .status idz) = some 0x4005 := by decide
theorem test_status_faulted : answer (exec .status faulted) = some 0x401A := by decide
/-- V-L4's reads, on IDN as loaded. -/
theorem test_readStat : answer (exec (.readStat 93) idz) = some 0x407E := by decide
theorem test_readRefl : answer (exec (.readRefl 38) idz) = some 0x4047 := by decide
theorem test_readScr1 : answer (exec (.readScr1 1) idz) = some 0x4022 := by decide
theorem test_readScr2 : answer (exec (.readScr2 0) idz) = some 0x4021 := by decide
theorem test_readScr3 : answer (exec (.readScr3 93) idz) = some 0x407E := by decide
theorem test_readNotch : answer (exec (.readNotch 1) idz) = some 0x4020 := by decide
theorem test_readStart : answer (exec (.readStart 2) idz) = some 0x4021 := by decide
theorem test_readCmsg : answer (exec (.readCmsg 38) idz) = some 0x4041 := by decide
/-- V-L4: CMSG 39 is past the limit. V-H2: PLAIN 0 with `out_count` = 0 is. V-H9: NOT_READY comes first. -/
theorem test_readCmsg_range : answer (exec (.readCmsg 39) idz) = some 0x8005 := by decide
theorem test_readPlain_range : answer (exec (.readPlain 0) idz) = some 0x8005 := by decide
theorem test_readPlain : answer (exec (.readPlain 0) { idz with outCount := 1, plain := idz.cmsg }) = some 0x4041 := by
  decide
theorem test_readStat_notReady : answer (exec (.readStat 255) State.reset) = some 0x8004 := by decide
/-- V-X8: `pkt_count` = 518 in two bytes. V-H6: REGS has eight entries. -/
theorem test_readRegs : answer (exec (.readRegs 3) idz) = some 0x4002 := by decide
theorem test_readRegs_range : answer (exec (.readRegs 8) State.reset) = some 0x8005 := by decide
/-- P5: SOFT_RESET leaves FAULTED. -/
theorem test_softReset : field (fun t => (t.rsp, t.engState, t.errCode)) (exec .softReset faulted) =
    some (some 0x0000, .idle, .noError) := by decide

/-! ### The step -/

/-- V-H1: an offered STATUS is accepted and answered. -/
theorem test_step_status : answer (step (State.reset.withFetchWord 16 0x7000)) = some 0x4000 := by decide
/-- V-H3: an illegal word raises ILLEGAL_CMD; in FAULTED the recorded code is answered. -/
theorem test_step_illegal : answer (step (State.reset.withFetchWord 16 0x8000)) = some 0x8003 := by decide
theorem test_step_faulted : answer (step (faulted.withFetchWord 16 0x1001)) = some 0x8003 := by decide
/-- R81: the response is taken at an edge with `rsp_ready`, and no command is accepted at it. -/
theorem test_step_take :
    field (fun t => (t.rsp, t.taken)) (step { State.reset with rsp := some 0x4081, inputs := [offer 0xF000] }) =
      some (none, [0x4081]) := by decide
/-- R260: the pin loses the response. -/
theorem test_step_pin :
    field (fun t => (t.rsp, t.taken, t.extCnt))
      (step { State.reset with extCnt := 3, rsp := some 0, inputs := [⟨false, some 0x1001, true⟩] }) =
      some (none, [], 0) := by decide

/-! ### Witnesses: the statements' hypotheses can be met -/

theorem witness_ReservedEncodingsRaiseIllegalCmd_opcodes :
    State.reset.engState ≠ .faulted ∧ (8 ≤ (fieldsOf 0x8000).op.toNat ∧ (fieldsOf 0x8000).op.toNat ≤ 14) ∧
      (8 ≤ (fieldsOf 0xEFFF).op.toNat ∧ (fieldsOf 0xEFFF).op.toNat ≤ 14) := by decide
theorem witness_ReservedEncodingsRaiseIllegalCmd_selectors :
    State.reset.engState ≠ .faulted ∧ ((fieldsOf 0x6A00).op.toNat = 6 ∧ 10 ≤ (fieldsOf 0x6A00).sel.toNat) ∧
      ((fieldsOf 0x6FFF).op.toNat = 6 ∧ 10 ≤ (fieldsOf 0x6FFF).sel.toNat) := by decide
theorem witness_IllegalWordRaisesOrIsAnswered :
    (∃ e, decode 0x0001 = .error e) ∧ State.reset.engState ≠ .faulted ∧ faulted.engState = .faulted :=
  ⟨⟨_, test_decode_operand_not_zero⟩, by decide, rfl⟩
theorem witness_AssemblerProducesTheTableWords : 255 < 256 ∧ 256 ≤ 256 ∧ "SCR4" ∉ selectorNames := by decide
theorem witness_PushPackedEmitsItsByte : State.reset.engState ≠ .faulted ∧ AtGroupBoundary State.reset := by decide
theorem witness_ExtByteHoldsTheBit :
    State.reset.engState ≠ .faulted ∧ State.reset.extCnt.toNat < 7 ∧
      ({ State.reset with extCnt := 6 } : State).extCnt.toNat < 7 := by decide
theorem witness_ExtByteCompletesAndCaptures (n : BitVec 10) :
    let s : State := { State.reset with extCnt := 7, pktCount := n, payload := [(0, 1)] }
    s.engState ≠ .faulted ∧ s.extCnt.toNat = 7 ∧ s.payload.wf = true := ⟨by simp [State.reset], rfl, rfl⟩
/-- The bounds at which the clauses about `pkt_count` meet. -/
theorem witness_ExtByteCompletesAndCaptures_bounds :
    [3, 4, 517, 518].map (fun n : Nat => decide (4 ≤ n ∧ n < 518)) = [false, true, true, false] := by decide
theorem witness_ExtByteUsesBitZeroOnly : (0xFE#8).getLsbD 0 = (0x00#8).getLsbD 0 := by decide
theorem witness_EightRawBytesPackOneByte : State.reset.engState ≠ .faulted ∧ AtGroupBoundary State.reset := by decide
theorem witness_StreamedExtractorIsTheSourceFunction :
    State.reset.engState ≠ .faulted ∧ AtGroupBoundary State.reset := by decide
theorem witness_CaptureHoldsTheFileBits :
    State.reset.engState ≠ .faulted ∧ AtGroupBoundary State.reset ∧ State.reset.pktCount = 0 ∧
      State.reset.payload.wf = true ∧ 54 + 4144 ≤ (List.replicate 4198 (1 : Byte)).length :=
  ⟨by decide, by decide, rfl, rfl, by rw [List.length_replicate]⟩
theorem witness_NopAnswersOk : 1 ≤ (0x0001#16).toNat ∧ (0x0001#16).toNat ≤ 0x0FFF ∧ (0x0FFF#16).toNat ≤ 0x0FFF := by decide
theorem witness_ExtEndDropsThePartialGroup :
    State.reset.engState ≠ .faulted ∧ faulted.engState = .faulted ∧ 0x2001 ≤ (0x2001#16).toNat ∧
      (0x2FFF#16).toNat ≤ 0x2FFF := by decide
theorem witness_ExtractorIsIsolatedFromTheEngine :
    let s : State := { State.reset with pktCount := 518 }
    (Instr.extByte 1 = .extEnd ∨ ∃ d, Instr.extByte 1 = .extByte d) ∧ s.engState ≠ .faulted ∧ idz.engState ≠ .faulted ∧
      s.extAcc = idz.extAcc ∧ s.extCnt = idz.extCnt ∧ s.pktCount = idz.pktCount ∧ s.payload = idz.payload ∧
      (∃ t, exec (.extByte 1) s = .next t) ∧ ∃ t, exec (.extByte 1) idz = .next t :=
  ⟨.inr ⟨1, rfl⟩, by decide, by decide, rfl, rfl, rfl, rfl, ⟨_, rfl⟩, ⟨_, rfl⟩⟩
theorem witness_LoadOfAShortCaptureRaisesMalformed :
    State.reset.engState ≠ .faulted ∧ ({ State.reset with pktCount := 517 } : State).pktCount.toNat < 518 ∧
      518 ≤ ({ State.reset with pktCount := 518 } : State).pktCount.toNat := by decide
theorem witness_LoadBuildsTheEngine :
    let s := captured 0x41 0x21 0x7E
    s.engState ≠ .faulted ∧ 518 ≤ s.pktCount.toNat ∧ StartsAt s 188 472 32 ∧ StartsAt s 282 473 0 ∧
      StartsAt s 376 474 93 := by decide +kernel
theorem witness_LoadWithoutAStartSymbolRaisesConsistency :
    (captured 0x20 0x21 0x21).engState ≠ .faulted ∧ 518 ≤ (captured 0x20 0x21 0x21).pktCount.toNat ∧
      StartMissing (captured 0x20 0x21 0x21) 188 472 ∧ ¬StartMissing (captured 0x21 0x20 0x21) 188 472 ∧
      StartMissing (captured 0x21 0x20 0x21) 282 473 ∧ ¬StartMissing (captured 0x21 0x21 0x00) 188 472 ∧
      ¬StartMissing (captured 0x21 0x21 0x00) 282 473 ∧ StartMissing (captured 0x21 0x21 0x00) 376 474 := by
  decide +kernel
theorem witness_ReloadRebuildsTheSameEngine :
    let s := captured 0x41 0x21 0x7E
    s.engState ≠ .faulted ∧ 518 ≤ s.pktCount.toNat ∧ Instr.softReset ∉ [Instr.extEnd] ∧
      ∃ rs u, runCommands [.extEnd] s = some (rs, u) ∧ u.engState ≠ .faulted :=
  ⟨by decide, by decide, by decide, _, _, rfl, by decide⟩
theorem witness_StepWithoutRepeatIsARightRotation : ∀ j : Fin 94, j.val < 93 → idWheel[j] ≠ idWheel[93] := by
  decide +kernel
theorem witness_StepWithARepeatRotatesToTheFirstCopy :
    (0 : Fin 94).val < 93 ∧ FirstAt dupWheel dupWheel[93] 0 ∧
      FirstAt (idWheel.set 93 0x7D) (idWheel.set 93 0x7D)[93] 92 := by decide +kernel
theorem witness_OneRotorRoundTrip :
    idz.stat.toList.Nodup ∧ (idz.scr .r1).toList.Perm idz.stat.toList ∧ (0x41 : Symbol) ∈ idz.stat.toList := by
  decide +kernel
theorem witness_ReflectionIsAnInvolution : idz.refl.toList.Nodup ∧ (0x41 : Symbol) ∈ idz.refl.toList := by
  decide +kernel
theorem witness_OnlyLoadAndResetChangeTheWheelContents :
    decode 0x4041 ≠ .ok .load ∧ decode 0x4041 ≠ .ok .softReset ∧ ∃ t, runWord 0x4041 idz = .next t :=
  ⟨by decide, by decide, _, (runWord_effect 0x4041 idz).choose_spec.1⟩
theorem witness_CipherAnswersTheSubstitutedSymbol :
    idz.engState = .ready ∧
      Stepped idz (stepRotors idz).scr1 (stepRotors idz).scr2 (stepRotors idz).scr3 ∧
      Yields idz.stat idz.refl (stepRotors idz).scr1 (stepRotors idz).scr2 (stepRotors idz).scr3 0x41 0x40 := by
  refine ⟨rfl, (stepped_iff _ _ _ _).2 (by rw [stepRotors_eq]), ?_⟩
  have h : substitute (stepRotors idz) 0x41 = .ok 0x40 := by decide +kernel
  have := substitute_eq_ok.1 h
  simpa [stepRotors_eq] using this

/-- A state and a symbol whose iteration fails at each of the sites 4 to 10 (V-E1, V-E3, V-E4 for 4, 7, 8). -/
theorem test_lookup_failures :
    substitute (stepRotors idz) 0x20 = .error ⟨.outbound .r1, 0x20⟩ ∧
    substitute (stepRotors { idz with scr1 := idWheel.set 31 0x20 }) 0x41 = .error ⟨.outbound .r2, 0x20⟩ ∧
    substitute (stepRotors { idz with scr2 := idWheel.set 31 0x20 }) 0x41 = .error ⟨.outbound .r3, 0x20⟩ ∧
    substitute (stepRotors { idz with refl := dupWheel }) 0x21 = .error ⟨.reflector, 0x7E⟩ ∧
    substitute (stepRotors { idz with scr3 := dupWheel }) 0x7E = .error ⟨.inbound .r3, 0x7E⟩ ∧
    substitute (stepRotors { idz with scr2 := dupWheel }) 0x7E = .error ⟨.inbound .r2, 0x7E⟩ ∧
    substitute (stepRotors { idz with scr1 := dupWheel }) 0x7D = .error ⟨.inbound .r1, 0x7E⟩ := by decide +kernel

/-- Every failing iteration meets the hypotheses of the statement about failed lookups. -/
theorem witness_CipherLookupFailureRaisesConsistency (s : State) (d : Symbol) (m : Miss)
    (h : substitute (stepRotors s) d = .error m) :
    Stepped s (stepRotors s).scr1 (stepRotors s).scr2 (stepRotors s).scr3 ∧
      Misses s.stat s.refl (stepRotors s).scr1 (stepRotors s).scr2 (stepRotors s).scr3 d m.site m.sym := by
  refine ⟨(stepped_iff _ _ _ _).2 (by rw [stepRotors_eq]), ?_⟩
  have := substitute_eq_error.1 h
  simpa [stepRotors_eq] using this
theorem witness_CipherIsReciprocal : idz.engState = .ready ∧ ValidWheels idz ∧ (0x41 : Symbol) ∈ Config.alphabet := by
  decide +kernel
theorem witness_DecodeMsgIsThirtyNineCiphers : idz.engState = .ready ∧ badMessage.engState = .ready := ⟨rfl, rfl⟩
/-- Both of its clauses occur: the 39 ciphers end READY, and end FAULTED. -/
theorem witness_DecodeMsgIsThirtyNineCiphers_clauses :
    (runCommands (idz.cmsg.toList.map .cipher) idz).map (fun r => r.2.engState) = some .ready ∧
      (runCommands (badMessage.cmsg.toList.map .cipher) badMessage).map (fun r => r.2.engState) = some .faulted := by
  decide +kernel
theorem witness_DecodeMsgOfAValidMessageCompletes :
    idz.engState = .ready ∧ ValidWheels idz ∧ ∀ k : Fin 39, idz.cmsg[k] ∈ Config.alphabet := by decide +kernel
theorem witness_DecodingTheDecodedMessageGivesItBack :
    idz.engState = .ready ∧ ValidWheels idz ∧ ∀ k : Fin 39, idz.cmsg[k] ∈ Config.alphabet :=
  witness_DecodeMsgOfAValidMessageCompletes
theorem witness_CipherAndDecodeMsgFrame :
    (∃ t, exec (.cipher 0x41) idz = .next t) ∧ ∃ t, exec .decodeMsg idz = .next t :=
  ⟨⟨_, (exec_effect (.cipher 0x41) idz).choose_spec.1⟩, _, (exec_effect .decodeMsg idz).choose_spec.1⟩
theorem witness_EngineCommandsInIdleRaiseNotReady :
    State.reset.engState = .idle ∧ Instr.readPlain 255 ∈ [Instr.readStat 255, .readPlain 255] := by decide
theorem witness_ReadAnswersTheTableEntry :
    idz.engState = .ready ∧ (38 : Fin 39).val < ({ idz with outCount := 39 } : State).outCount.toNat := by decide
theorem witness_ReadPastTheLimitRaisesRange :
    idz.engState = .ready ∧ 94 ≤ (94#8).toNat ∧ 2 ≤ (2#8).toNat ∧ 3 ≤ (3#8).toNat ∧ 39 ≤ (39#8).toNat ∧
      idz.outCount.toNat ≤ (0#8).toNat ∧ State.reset.engState ≠ .faulted ∧ 8 ≤ (8#8).toNat := by decide
theorem witness_SuccessfulReadsArePure :
    (answer (exec .status idz)).map (·.getLsbD 15) = some false ∧
      (answer (exec (.readStat 94) idz)).map (·.getLsbD 15) = some true ∧ idz.engState ≠ .faulted := by decide
theorem witness_FaultedAnswersTheRecordedError :
    faulted.engState = .faulted ∧ (0x6900 ≤ (0x6907#16).toNat ∧ (0x6907#16).toNat ≤ 0x6907) ∧
      ¬((0x6908#16) = 0x0000#16 ∨ (0x6908#16) = 0x7000#16 ∨ (0x6908#16) = 0xF000#16 ∨
        (0x6900 ≤ (0x6908#16).toNat ∧ (0x6908#16).toNat ≤ 0x6907)) := by decide
theorem witness_FaultedIsLeftOnlyByReset :
    faulted.engState = .faulted ∧ (∃ t, step { faulted with inputs := [⟨false, none, false⟩] } = .next t) ∧
      ∃ t, step { faulted with inputs := [⟨true, none, false⟩] } = .next t := ⟨rfl, ⟨_, rfl⟩, _, rfl⟩
theorem witness_EngineStateTransitions : ∃ t, runWord 0x4041 State.reset = .next t :=
  ⟨_, (runWord_effect 0x4041 State.reset).choose_spec.1⟩
theorem witness_StepRunsTheDecodedCommand :
    let s : State := { State.reset with inputs := [offer 0x7000] }
    s.inputs = offer 0x7000 :: [] ∧ (offer 0x7000).rstN = true ∧ s.rsp = none ∧ (offer 0x7000).cmd = some 0x7000 ∧
      decode 0x7000 = .ok .status ∧ decode 0x8000 = .error .reservedOpcode := by decide
theorem witness_ResponseIsHeldUntilTaken :
    let s : State := { State.reset with rsp := some 0x4081, inputs := [offer 0x7000] }
    s.inputs = offer 0x7000 :: [] ∧ (offer 0x7000).rstN = true ∧ s.rsp = some 0x4081 ∧
      (offer 0x7000).rspReady = true ∧ State.reset.rsp = none := by decide
theorem witness_ResetPinLosesTheResponse :
    let p : PortInput := ⟨false, some 0x7000, true⟩
    ({ idz with inputs := [p] } : State).inputs = p :: [] ∧ p.rstN = false := by decide
theorem witness_BlockHoldsItsStateBetweenCommands :
    let p : PortInput := ⟨true, none, true⟩
    idz.inputs = [] ∧ ({ idz with inputs := [p] } : State).inputs = p :: [] ∧ p.rstN = true ∧ p.cmd = none :=
  ⟨rfl, rfl, rfl, rfl⟩
theorem witness_StepKeepsTheInvariant :
    let s : State := { State.reset with extAcc := 0x80, extCnt := 1, pktCount := 5, payload := [(0, 7)] }
    s.Inv ∧ ∃ t, step s = .next t := by
  refine ⟨?_, _, rfl⟩
  constructor <;> simp [State.reset]
  · decide
  · intro j hj
    have : ∀ j < 7, (0x80#8).getLsbD j = false := by decide
    exact this j (by omega)
theorem witness_UnspecifiedRegistersAreNeverObserved :
    State.reset.payload.wf = true ∧ ({ State.reset with stat := idWheel, payload := [(3, 9)] } : State).payload.wf = true ∧
      SameToHost State.reset { State.reset with stat := idWheel, payload := [(3, 9)] } ∧
      ∃ t, step State.reset = .next t := by
  refine ⟨rfl, rfl, ?_, _, rfl⟩
  constructor <;> simp [State.reset]
theorem witness_ResponsesAreAFunctionOfTheInputs :
    let s : State := { State.reset with inputs := [offer 0x1001, offer 0x0000, offer 0x7000] }
    let t : State := { s with stat := idWheel, freeIdx := 9 }
    ResetValues s ∧ ResetValues t ∧ s.payload.wf = true ∧ t.payload.wf = true ∧ s.inputs = t.inputs ∧ s.rsp = t.rsp ∧
      s.taken = t.taken ∧ ∃ u, Host.Core.run Sys2Proof.core 3 s = .next u ∧ u.taken = [0x0000] ∧ u.rsp = some 0x4080 := by
  refine ⟨?_, ?_, rfl, rfl, rfl, rfl, rfl, _, rfl, rfl, rfl⟩ <;> constructor <;> rfl

end Sys2Proof.Tests
end

namespace Sys2Proof.Machine

/-! ### The step at an edge that accepts a word -/

/-- A word that decodes runs its command (R77). -/
theorem runWord_of_decode_ok {w : Word} {i : Instr} (h : decode w = .ok i) (s : State) :
    runWord w s = exec i s := by simp [runWord, h]

/-- A word that decodes to nothing is answered as illegal (R75). -/
theorem runWord_of_decode_error {w : Word} {e : Illegal} (h : decode w = .error e) (s : State) :
    runWord w s = illegalWord s := by simp [runWord, h]

/-- Out of reset and with no response waiting, `cmd_ready` is 1, so an offered word is accepted (R81). -/
theorem portAction_of_offered {s : State} {p : PortInput} {rest : List PortInput} {w : Word}
    (hin : s.inputs = p :: rest) (hrst : p.rstN = true) (hrsp : s.rsp = none) (hcmd : p.cmd = some w) :
    portAction s = .run w { s with inputs := rest } := by
  have hready : cmdReady p { s with inputs := rest } = true := by simp [cmdReady, hrst, hrsp]
  have hport : rspPort p { s with inputs := rest } = none := by simp [rspPort, hrsp]
  simp only [portAction, hin, hrst, hport, hcmd, hready, if_true]

/-- A step that accepts a word runs it on the state past that edge (R11, R81). -/
theorem step_of_offered {s : State} {p : PortInput} {rest : List PortInput} {w : Word}
    (hin : s.inputs = p :: rest) (hrst : p.rstN = true) (hrsp : s.rsp = none) (hcmd : p.cmd = some w) :
    step s = runWord w { s with inputs := rest } := by
  simp [step, portAction_of_offered hin hrst hrsp hcmd]

/-- Settles O46: the edge accepts the word, and the two results of `decode` are the two branches of `runWord`. -/
theorem stepRunsTheDecodedCommand : Obligations.StepRunsTheDecodedCommand := by
  intro s p rest w hin hrst hrsp hcmd
  have hstep := step_of_offered hin hrst hrsp hcmd
  constructor
  · intro i hi
    exact hstep.trans (runWord_of_decode_ok hi _)
  · intro e he
    exact hstep.trans (runWord_of_decode_error he _)

end Sys2Proof.Machine

namespace Sys2Proof.Machine

/-! ### The invariant, by what an update writes -/

/-- The fields of which the invariant speaks agree. -/
structure SameTracked (s t : State) : Prop where
  extAcc : s.extAcc = t.extAcc
  extCnt : s.extCnt = t.extCnt
  pktCount : s.pktCount = t.pktCount
  payload : s.payload = t.payload
  engState : s.engState = t.engState
  outCount : s.outCount = t.outCount
  errCode : s.errCode = t.errCode
  faultSite : s.faultSite = t.faultSite
  faultSym : s.faultSym = t.faultSym

theorem SameTracked.trans {s t u : State} (h : SameTracked s t) (g : SameTracked t u) : SameTracked s u := by
  constructor
  exacts [h.extAcc.trans g.extAcc, h.extCnt.trans g.extCnt, h.pktCount.trans g.pktCount, h.payload.trans g.payload,
    h.engState.trans g.engState, h.outCount.trans g.outCount, h.errCode.trans g.errCode,
    h.faultSite.trans g.faultSite, h.faultSym.trans g.faultSym]

theorem inv_of_sameTracked {s t : State} (h : s.Inv) (e : SameTracked s t) : t.Inv := by
  obtain ⟨⟩ := s
  obtain ⟨⟩ := t
  obtain ⟨rfl, rfl, rfl, rfl, rfl, rfl, rfl, rfl, rfl⟩ := e
  exact { h with }

/-- A response is no part of the invariant. -/
theorem inv_respond {s : State} (h : s.Inv) (err dv : Bool) (v : Byte) : (respond err dv v s).Inv :=
  { h with }

/-- The values R261 states, with an empty capture buffer, meet the invariant. -/
theorem inv_of_resetValues {s : State} (h : ResetValues s) (hp : s.payload = []) : s.Inv := by
  obtain ⟨hacc, hcnt, hpkt, heng, hout, herr, hsite, hsym⟩ := h
  constructor <;> simp [hacc, hpkt, heng, hout, herr, hsite, hsym, hp, wf_nil]

/-- RESET_STATE gives the values R261 states. -/
theorem resetState_resetValues (s : State) : ResetValues (resetState s) := by constructor <;> rfl

theorem inv_resetState (s : State) : (resetState s).Inv :=
  inv_of_resetValues (resetState_resetValues s) rfl

/-- Fault entry (R224): a recorded error with a site exactly for CONSISTENCY, and no symbol without a site. -/
theorem inv_raise {s : State} (h : s.Inv) {e : ErrCode} {site : FaultSite} {sym : Symbol} (he : e ≠ .noError)
    (hsite : site ≠ .noLookup ↔ e = .consistency) (hsym : site = .noLookup → sym = 0) :
    (raise e site sym s).Inv :=
  { h with
    ready_full := by simp
    idle_empty := by simp
    faulted_iff := by simpa using he
    site_iff := hsite
    sym_zero := hsym }

theorem inv_raisePlain {s : State} (h : s.Inv) {e : ErrCode} (he : e ≠ .noError) (hc : e ≠ .consistency) :
    (raisePlain e s).Inv :=
  inv_raise h he (by simp [hc]) fun _ => rfl

theorem inv_raiseMiss {s : State} (h : s.Inv) {m : Miss} (hm : m.site ≠ .noLookup) : (raiseMiss m s).Inv :=
  inv_raise h (by simp) (by simp [hm]) fun e => absurd e hm

/-- In READY `out_count` may hold any value up to 39 (R34). -/
theorem inv_outCount {s : State} (h : s.Inv) (hr : s.engState = .ready) {n : BitVec 6} (hn : n.toNat ≤ 39) :
    ({ s with outCount := n } : State).Inv :=
  { h with
    outCount_le := hn
    idle_empty := fun hi => by simp [hr] at hi }

/-- Outside FAULTED no error is recorded (R27, R35). -/
theorem errCode_of_not_faulted {s : State} (h : s.Inv) (hf : s.engState ≠ .faulted) : s.errCode = .noError :=
  not_not.1 fun he => hf (h.faulted_iff.2 he)

/-! ### The extractor -/

/-- The packer writes bit 7 − `ext_cnt` and none below it (R23, R101). -/
theorem packBit_getLsbD_below {s : State} (h : s.Inv) (d : Byte) {j : Nat} (hj : j + s.extCnt.toNat < 7) :
    (packBit d s).getLsbD j = false := by
  have hacc := h.extAcc_unfilled j (by omega)
  simp [packBit, hacc, show j < 7 - s.extCnt.toNat by omega]

/-- A packed byte past the capture's end is ignored (R104). -/
theorem capture_of_full {s : State} (h : 518 ≤ s.pktCount.toNat) (p : Byte) : capture p s = s := by
  simp [capture, show ¬s.pktCount.toNat < 518 by omega]

/-- A packed byte of the header is counted and dropped (R104). -/
theorem capture_of_header {s : State} (h : s.pktCount.toNat < 4) (p : Byte) :
    capture p s = { s with pktCount := s.pktCount + 1 } := by
  simp [capture, h, show s.pktCount.toNat < 518 by omega]

/-- A packed byte of the payload is counted and stored at `pkt_count` − 4 (R104). -/
theorem capture_of_payload {s : State} (h4 : 4 ≤ s.pktCount.toNat) (h : s.pktCount.toNat < 518) (p : Byte) :
    capture p s =
      { s with payload := s.payload.write (s.pktCount.toNat - 4) p, pktCount := s.pktCount + 1 } := by
  simp [capture, h, memWrite, show ¬s.pktCount.toNat < 4 by omega]

/-- Counting one more packed byte, with the capture buffer listing none beyond it. -/
theorem inv_count {s : State} (h : s.Inv) (hn : s.pktCount.toNat < 518) {m : Memory} (hwf : m.wf = true)
    (hm : ∀ c ∈ m, c.1 + 4 < s.pktCount.toNat + 1) :
    ({ s with payload := m, pktCount := s.pktCount + 1 } : State).Inv := by
  have hcount : (s.pktCount + 1).toNat = s.pktCount.toNat + 1 := by bv_omega
  exact { h with
    payload_wf := hwf
    payload_below := by simpa only [hcount] using hm
    pktCount_le := by simp only [hcount]; omega
    ready_full := fun hr => by have := h.ready_full hr; omega }

theorem inv_capture {s : State} (h : s.Inv) (p : Byte) : (capture p s).Inv := by
  rcases Nat.lt_or_ge s.pktCount.toNat 4 with h4 | h4
  · rw [capture_of_header h4]
    exact inv_count h (by omega) h.payload_wf fun c hc => Nat.lt_succ_of_lt (h.payload_below c hc)
  rcases Nat.lt_or_ge s.pktCount.toNat 518 with hn | hn
  · rw [capture_of_payload h4 hn]
    refine inv_count h hn (wf_write _ _ _ (by omega) h.payload_wf) fun c hc => ?_
    rcases mem_write _ _ _ _ hc with rfl | hc
    · simp only; omega
    · exact Nat.lt_succ_of_lt (h.payload_below c hc)
  · rw [capture_of_full hn]
    exact h

/-- An emptied packer has no filled bits (R53). -/
theorem inv_emptyPacker {s : State} (h : s.Inv) : ({ s with extAcc := 0, extCnt := 0 } : State).Inv :=
  { h with extAcc_unfilled := by simp }

/-- EXT_BYTE fills the next bit of the group, or completes it (R101, R103). -/
theorem inv_extByteBody {s : State} (h : s.Inv) (d : Byte) : (extByteBody d s).Inv := by
  unfold extByteBody
  split
  · exact inv_respond (inv_capture (inv_emptyPacker h) _) ..
  · rename_i h7
    have hcnt : (s.extCnt + 1).toNat = s.extCnt.toNat + 1 := by bv_omega
    have hpack : ({ s with extAcc := packBit d s, extCnt := s.extCnt + 1 } : State).Inv :=
      { h with extAcc_unfilled := fun j hj => packBit_getLsbD_below h d (by simp only [hcnt] at hj; omega) }
    exact inv_respond hpack ..

/-! ### The engine -/

/-- The field copies of LOAD write the engine registers only (R54, R130). -/
theorem sliceFields_sameTracked (s : State) : SameTracked s (sliceFields s) := by
  constructor <;> rw [sliceFields]

/-- The start steps write the scrambled wheels only (R42). -/
theorem startSteps_sameTracked (rs : List Rotor) (s : State) : SameTracked s (startSteps rs s).1 := by
  rw [startSteps_frame]
  constructor <;> rfl

theorem inv_stepRotors {s : State} (h : s.Inv) : (stepRotors s).Inv := by
  rw [stepRotors_eq]
  exact { h with }

/-- The stepping of the rotors does not move the engine state (R159). -/
@[simp] theorem stepRotors_engState (s : State) : (stepRotors s).engState = s.engState := by rw [stepRotors_eq]

/-- In READY the loop of DECODE_MSG keeps the invariant, completing or not: each iteration steps the wheels and counts
one of the 39 answers (R163). -/
theorem inv_decodeLoop (ks : List (Fin 39)) {s : State} (h : s.Inv) (hr : s.engState = .ready) :
    (decodeLoop ks s).1.Inv := by
  induction ks generalizing s with
  | nil => exact h
  | cons k ks ih =>
    simp only [decodeLoop]
    cases substitute (stepRotors s) s.cmsg[k] with
    | error m => exact inv_stepRotors h
    | ok y =>
      have hready : (stepRotors s).engState = .ready := (stepRotors_engState s).trans hr
      have hcount : (BitVec.ofNat 6 (k.val + 1)).toNat ≤ 39 := by simp only [BitVec.toNat_ofNat]; omega
      exact ih { inv_outCount (inv_stepRotors h) hready hcount with } hready

/-- In READY DECODE_MSG keeps the invariant up to its answer. -/
theorem inv_decodeSteps {s t : State} {o : Option Miss} (h : s.Inv) (hr : s.engState = .ready)
    (e : decodeLoop (List.finRange 39) { s with outCount := 0 } = (t, o)) : t.Inv := by
  have ht := inv_decodeLoop (List.finRange 39) (inv_outCount h hr (n := 0) (by simp)) hr
  rwa [e] at ht

/-- LOAD up to its last writes touches nothing of which the invariant speaks, failing or not. -/
theorem loadSteps_sameTracked {rs : List Rotor} {s t : State} {o : Option Miss}
    (e : startSteps rs (sliceFields s) = (t, o)) : SameTracked s t := by
  have h := (sliceFields_sameTracked s).trans (startSteps_sameTracked rs (sliceFields s))
  rwa [e] at h

/-- With a full capture and no error, LOAD's last writes keep the invariant (R131). -/
theorem inv_enterReady {s : State} (h : s.Inv) (hf : s.engState ≠ .faulted) (hfull : 518 ≤ s.pktCount.toNat) :
    ({ s with outCount := 0, engState := .ready } : State).Inv :=
  { h with
    outCount_le := by simp
    ready_full := fun _ => Nat.le_antisymm h.pktCount_le hfull
    idle_empty := fun _ => rfl
    faulted_iff := by simp [errCode_of_not_faulted h hf] }

/-! ### Every effect, every step -/

/-- Every effect of a word keeps the invariant. -/
theorem inv_effect {s t : State} (h : s.Inv) (he : Effect s t) : t.Inv := by
  cases he with
  | answered err dv v => exact inv_respond h err dv v
  | raised e _ hne hnc => exact inv_raisePlain h hne hnc
  | extByte d _ => exact inv_extByteBody h d
  | extEnd _ => exact inv_respond (inv_emptyPacker h) ..
  | loaded t hf hfull hr =>
    have ht := loadSteps_sameTracked hr
    exact inv_respond (inv_enterReady (inv_of_sameTracked h ht) (ht.engState ▸ hf) (ht.pktCount ▸ hfull)) ..
  | loadMissed t m _ _ hr =>
    have ht := inv_of_sameTracked h (loadSteps_sameTracked hr)
    exact inv_raiseMiss ht (startSteps_site (congrArg Prod.snd hr))
  | ciphered d y _ _ => exact inv_respond (inv_stepRotors h) ..
  | cipherMissed d m _ hr => exact inv_raiseMiss (inv_stepRotors h) (substitute_error_site hr)
  | decoded t hs hr => exact inv_respond (inv_decodeSteps h hs hr) ..
  | decodeMissed t m hs hr =>
    exact inv_raiseMiss (inv_decodeSteps h hs hr) (decodeLoop_site (congrArg Prod.snd hr))
  | reset => exact inv_respond (inv_resetState s) ..

/-- Running a word keeps the invariant. -/
theorem inv_runWord {w : Word} {s t : State} (h : s.Inv) (hw : runWord w s = .next t) : t.Inv := by
  obtain ⟨u, hu, he⟩ := runWord_effect w s
  obtain rfl : u = t := Host.Outcome.next.inj (hu.symm.trans hw)
  exact inv_effect h he

/-- Settles O51: the reset state holds the values R261 states and an empty capture buffer. -/
theorem resetStateMeetsTheInvariant : Obligations.ResetStateMeetsTheInvariant :=
  inv_of_resetValues (by constructor <;> rfl) rfl

/-- Settles O52, by the cases of `step_cases`: the interface writes nothing of which the invariant speaks but by a reset,
and an accepted word has one of the effects. -/
theorem stepKeepsTheInvariant : Obligations.StepKeepsTheInvariant := by
  intro s t h ht
  have hin (rest : List PortInput) : ({ s with inputs := rest } : State).Inv := { h with }
  obtain ⟨-, hs⟩ | ⟨p, rest, -, ⟨-, hs⟩ | ⟨-, r, -, -, hs⟩ | ⟨-, hs⟩ | ⟨-, -, w, -, hs⟩⟩ := step_cases s <;>
    rw [hs] at ht
  · exact Host.Outcome.next.inj ht ▸ h
  · obtain rfl := Host.Outcome.next.inj ht
    exact { inv_resetState { s with inputs := rest } with }
  · obtain rfl := Host.Outcome.next.inj ht
    exact { h with }
  · exact Host.Outcome.next.inj ht ▸ hin rest
  · exact inv_runWord (hin rest) ht

end Sys2Proof.Machine

namespace Sys2Proof.Machine

/-! ### Words other than LOAD and SOFT_RESET -/

/-- What a gated command's next state can be (R226, R227). -/
theorem gated_next {body : State → State} {s t : State} (h : gated body s = .next t) :
    t = answerFaulted s ∨ (s.engState ≠ .faulted ∧ t = body s) := by
  by_cases hf : s.engState = .faulted
  · exact .inl (Host.Outcome.next.inj ((gated_of_faulted hf body).symm.trans h)).symm
  · exact .inr ⟨hf, (Host.Outcome.next.inj ((gated_of_not_faulted hf body).symm.trans h)).symm⟩

/-- What the next state of a gated command that needs READY can be (R221, R226, R227). -/
theorem gated_whenReady_next {body : State → State} {s t : State} (h : gated (whenReady body) s = .next t) :
    t = answerFaulted s ∨ (s.engState ≠ .faulted ∧ t = raisePlain .notReady s) ∨
      (s.engState = .ready ∧ t = body s) := by
  obtain rfl | ⟨hf, rfl⟩ := gated_next h
  · exact .inl rfl
  cases hs : s.engState with
  | idle => exact .inr (.inl ⟨by simp, whenReady_of_idle hs body⟩)
  | ready => exact .inr (.inr ⟨rfl, whenReady_of_ready hs body⟩)
  | faulted => exact absurd hs hf

/-- The effects of the words other than LOAD and SOFT_RESET. -/
inductive OrdinaryEffect (s : State) : State → Prop
  /-- A response and nothing else. -/
  | answered (err dv : Bool) (v : Byte) : OrdinaryEffect s (respond err dv v s)
  /-- An error that is not a failed lookup. -/
  | raised (e : ErrCode) : s.engState ≠ .faulted → e ≠ .noError → OrdinaryEffect s (raisePlain e s)
  /-- EXT_BYTE (R105). -/
  | extByte (d : Byte) : OrdinaryEffect s (extByteBody d s)
  /-- EXT_END (R106). -/
  | extEnd : OrdinaryEffect s (extEndBody s)
  /-- CIPHER in READY (R162). -/
  | cipher (d : Symbol) : s.engState = .ready → OrdinaryEffect s (cipherBody d s)
  /-- DECODE_MSG in READY (R163). -/
  | decodeMsg : s.engState = .ready → OrdinaryEffect s (decodeMsgBody s)

theorem readTable_ordinary {table : State → List Byte} {i : Byte} {s t : State}
    (h : readTable table i s = .next t) : OrdinaryEffect s t := by
  obtain rfl | ⟨hf, rfl⟩ | ⟨hr, rfl⟩ := gated_whenReady_next h
  · exact .answered ..
  · exact .raised _ hf (by simp)
  · obtain ⟨v, -, e⟩ | ⟨-, e⟩ := readEntry_cases (table s) i s
    · exact e ▸ .answered ..
    · exact e ▸ .raised _ (by simp [hr]) (by simp)

/-- READ REGS below its limit answers the entry of the register view in every state (R193, R227). -/
theorem exec_readRegs_of_entry {i v : Byte} {s : State} (h : (regsTable s)[i.toNat]? = some v) :
    exec (.readRegs i) s = .next (okv v s) := by
  have hi : i.toNat < 8 := (List.getElem?_eq_some_iff.1 h).1
  simp [exec, execReadRegs, hi, readEntry, h]

theorem readRegs_ordinary {i : Byte} {s t : State} (h : exec (.readRegs i) s = .next t) : OrdinaryEffect s t := by
  by_cases hi : i.toNat < 8
  · obtain rfl := Host.Outcome.next.inj ((exec_readRegs_of_entry (List.getElem?_eq_getElem hi)).symm.trans h)
    exact .answered ..
  · have e : exec (.readRegs i) s = gated (raisePlain .range) s := by simp [exec, execReadRegs, hi]
    obtain rfl | ⟨hf, rfl⟩ := gated_next (e ▸ h)
    exacts [.answered .., .raised _ hf (by simp)]

/-- Every command but LOAD and SOFT_RESET has an ordinary effect. -/
theorem exec_ordinary {i : Instr} {s t : State} (hload : i ≠ .load) (hreset : i ≠ .softReset)
    (h : exec i s = .next t) : OrdinaryEffect s t := by
  cases i with
  | nop => exact Host.Outcome.next.inj h ▸ .answered ..
  | extByte d =>
    obtain rfl | ⟨-, rfl⟩ := gated_next h
    exacts [.answered .., .extByte d]
  | extEnd =>
    obtain rfl | ⟨-, rfl⟩ := gated_next h
    exacts [.answered .., .extEnd]
  | load => exact absurd rfl hload
  | cipher d =>
    obtain rfl | ⟨hf, rfl⟩ | ⟨hr, rfl⟩ := gated_whenReady_next h
    exacts [.answered .., .raised _ hf (by simp), .cipher d hr]
  | decodeMsg =>
    obtain rfl | ⟨hf, rfl⟩ | ⟨hr, rfl⟩ := gated_whenReady_next h
    exacts [.answered .., .raised _ hf (by simp), .decodeMsg hr]
  | readStat _ | readRefl _ | readScr1 _ | readScr2 _ | readScr3 _ | readNotch _ | readStart _ | readCmsg _
  | readPlain _ => exact readTable_ordinary h
  | readRegs _ => exact readRegs_ordinary h
  | status => exact Host.Outcome.next.inj h ▸ .answered ..
  | softReset => exact absurd rfl hreset

/-- Every word but LOAD and SOFT_RESET, legal or illegal, has an ordinary effect. -/
theorem runWord_ordinary {w : Word} {s t : State} (hload : decode w ≠ .ok .load)
    (hreset : decode w ≠ .ok .softReset) (h : runWord w s = .next t) : OrdinaryEffect s t := by
  cases hw : decode w with
  | ok i =>
    rw [hw] at hload hreset
    exact exec_ordinary (fun e => hload (congrArg _ e)) (fun e => hreset (congrArg _ e))
      (runWord_of_decode_ok hw s ▸ h)
  | error e =>
    obtain rfl | ⟨hf, rfl⟩ := gated_next (runWord_of_decode_error hw s ▸ h)
    exacts [.answered .., .raised _ hf (by simp)]

/-! ### What the bodies write -/

/-- What EXT_BYTE writes (R110). -/
theorem extByteBody_frame (d : Byte) (s : State) :
    extByteBody d s = { s with
      extAcc := (extByteBody d s).extAcc, extCnt := (extByteBody d s).extCnt,
      pktCount := (extByteBody d s).pktCount, payload := (extByteBody d s).payload,
      rsp := (extByteBody d s).rsp } := by
  unfold extByteBody
  split
  · rw [capture_frame]; rfl
  · rfl

/-- CIPHER in READY answers or raises, on the stepped wheels (R162). -/
theorem cipherBody_cases (d : Symbol) (s : State) :
    (∃ y, cipherBody d s = okv y (stepRotors s)) ∨ ∃ m, cipherBody d s = raiseMiss m (stepRotors s) := by
  unfold cipherBody
  cases substitute (stepRotors s) d with
  | ok y => exact .inl ⟨y, rfl⟩
  | error m => exact .inr ⟨m, rfl⟩

/-- DECODE_MSG in READY answers ok() or raises, in the state its loop leaves (R163, R164). -/
theorem decodeMsgBody_cases (s : State) :
    decodeMsgBody s = ok (decodeLoop (List.finRange 39) { s with outCount := 0 }).1 ∨
      ∃ m, decodeMsgBody s = raiseMiss m (decodeLoop (List.finRange 39) { s with outCount := 0 }).1 := by
  unfold decodeMsgBody
  obtain ⟨t, _ | m⟩ := decodeLoop (List.finRange 39) { s with outCount := 0 }
  exacts [.inl rfl, .inr ⟨m, rfl⟩]

/-- What CIPHER in READY writes, whether it answers or fails (R162, R224). -/
theorem cipherBody_frame (d : Symbol) (s : State) :
    cipherBody d s = { s with
      scr1 := (stepRotors s).scr1, scr2 := (stepRotors s).scr2, scr3 := (stepRotors s).scr3,
      engState := (cipherBody d s).engState, errCode := (cipherBody d s).errCode,
      faultSite := (cipherBody d s).faultSite, faultSym := (cipherBody d s).faultSym,
      rsp := (cipherBody d s).rsp } := by
  obtain ⟨y, h⟩ | ⟨m, h⟩ := cipherBody_cases d s <;> rw [h, stepRotors_eq] <;> rfl

/-- What DECODE_MSG in READY writes, whether it completes or fails (R163, R224). -/
theorem decodeMsgBody_frame (s : State) :
    decodeMsgBody s = { s with
      scr1 := (decodeMsgBody s).scr1, scr2 := (decodeMsgBody s).scr2, scr3 := (decodeMsgBody s).scr3,
      engState := (decodeMsgBody s).engState, errCode := (decodeMsgBody s).errCode,
      faultSite := (decodeMsgBody s).faultSite, faultSym := (decodeMsgBody s).faultSym,
      rsp := (decodeMsgBody s).rsp, plain := (decodeMsgBody s).plain, outCount := (decodeMsgBody s).outCount } := by
  obtain h | ⟨m, h⟩ := decodeMsgBody_cases s <;> rw [h, decodeLoop_frame] <;> rfl

/-- Settles O34: the gate's answers write the error record and the response only, and in READY the bodies write what
their frames list. -/
theorem cipherAndDecodeMsgFrame : Obligations.CipherAndDecodeMsgFrame := by
  intro d s t
  constructor <;> intro h <;> obtain rfl | ⟨-, rfl⟩ | ⟨-, rfl⟩ := gated_whenReady_next h
  · rfl
  · rfl
  · rw [cipherBody_frame]
  · rfl
  · rfl
  · exact decodeMsgBody_frame s

/-! ### The wheels' contents -/

/-- The engine constants are the same and each scrambled wheel is a permutation of what it was (R30, R42). -/
structure WheelContentsKept (s t : State) : Prop where
  stat : t.stat = s.stat
  refl : t.refl = s.refl
  notch1 : t.notch1 = s.notch1
  notch2 : t.notch2 = s.notch2
  start1 : t.start1 = s.start1
  start2 : t.start2 = s.start2
  start3 : t.start3 = s.start3
  cmsg : t.cmsg = s.cmsg
  scr1 : t.scr1.toList.Perm s.scr1.toList
  scr2 : t.scr2.toList.Perm s.scr2.toList
  scr3 : t.scr3.toList.Perm s.scr3.toList

theorem WheelContentsKept.rfl {s : State} : WheelContentsKept s s :=
  ⟨.refl _, .refl _, .refl _, .refl _, .refl _, .refl _, .refl _, .refl _, .refl _, .refl _, .refl _⟩

theorem WheelContentsKept.trans {s t u : State} (h : WheelContentsKept s t) (g : WheelContentsKept t u) :
    WheelContentsKept s u := by
  constructor
  exacts [g.stat.trans h.stat, g.refl.trans h.refl, g.notch1.trans h.notch1, g.notch2.trans h.notch2,
    g.start1.trans h.start1, g.start2.trans h.start2, g.start3.trans h.start3, g.cmsg.trans h.cmsg,
    g.scr1.trans h.scr1, g.scr2.trans h.scr2, g.scr3.trans h.scr3]

/-- The stepping rotates wheels and writes nothing else (R42, R159). -/
theorem stepRotors_wheelContentsKept (s : State) : WheelContentsKept s (stepRotors s) := by
  rw [stepRotors_eq]
  refine { WheelContentsKept.rfl (s := s) with scr1 := stepDefault_perm s.scr1, scr2 := ?_, scr3 := ?_ }
  · by_cases h : s.scr1[0] = s.notch1 <;> simp [h, stepDefault_perm]
  · by_cases h : s.scr2[0] = s.notch2 <;> simp [h, stepDefault_perm]

/-- The loop of DECODE_MSG only steps the wheels (R163). -/
theorem decodeLoop_wheelContentsKept (ks : List (Fin 39)) (s : State) :
    WheelContentsKept s (decodeLoop ks s).1 := by
  induction ks generalizing s with
  | nil => exact .rfl
  | cons k ks ih =>
    have hstep := stepRotors_wheelContentsKept s
    simp only [decodeLoop]
    cases substitute (stepRotors s) s.cmsg[k] with
    | error m => exact hstep
    | ok y =>
      refine .trans ?_ (ih _)
      exact { hstep with }

theorem cipherBody_wheelContentsKept (d : Symbol) (s : State) : WheelContentsKept s (cipherBody d s) := by
  obtain ⟨y, h⟩ | ⟨m, h⟩ := cipherBody_cases d s <;> rw [h] <;> exact { stepRotors_wheelContentsKept s with }

theorem decodeMsgBody_wheelContentsKept (s : State) : WheelContentsKept s (decodeMsgBody s) := by
  have hloop := decodeLoop_wheelContentsKept (List.finRange 39) { s with outCount := 0 }
  obtain h | ⟨m, h⟩ := decodeMsgBody_cases s <;> rw [h] <;> exact { hloop with }

/-- No ordinary effect writes the engine's constants or the entries of a wheel (R42). -/
theorem OrdinaryEffect.wheelContentsKept {s t : State} (h : OrdinaryEffect s t) : WheelContentsKept s t := by
  cases h with
  | answered err dv v => exact { WheelContentsKept.rfl (s := s) with }
  | raised e _ _ => exact { WheelContentsKept.rfl (s := s) with }
  | extByte d =>
    rw [extByteBody_frame]
    exact { WheelContentsKept.rfl (s := s) with }
  | extEnd => exact { WheelContentsKept.rfl (s := s) with }
  | cipher d _ => exact cipherBody_wheelContentsKept d s
  | decodeMsg _ => exact decodeMsgBody_wheelContentsKept s

/-- Settles O27: the ordinary effects rotate wheels and write no other register of the engine's contents. -/
theorem onlyLoadAndResetChangeTheWheelContents : Obligations.OnlyLoadAndResetChangeTheWheelContents := by
  intro w s t hload hreset h
  obtain ⟨hstat, hrefl, hn1, hn2, hs1, hs2, hs3, hcmsg, h1, h2, h3⟩ :=
    (runWord_ordinary hload hreset h).wheelContentsKept
  exact ⟨hstat, hrefl, hn1, hn2, hs1, hs2, hs3, hcmsg, h1, h2, h3⟩

/-! ### The engine state -/

/-- The engine state stays, or a new error is recorded (R27). -/
abbrev KeepsModeOrFaults (s t : State) : Prop :=
  t.engState = s.engState ∨ (t.engState = .faulted ∧ s.engState ≠ .faulted ∧ t.errCode ≠ .noError)

theorem raise_keepsModeOrFaults {s u : State} (hf : s.engState ≠ .faulted) {e : ErrCode} (he : e ≠ .noError)
    (site : FaultSite) (sym : Symbol) : KeepsModeOrFaults s (raise e site sym u) :=
  .inr ⟨rfl, hf, he⟩

theorem raiseMiss_keepsModeOrFaults {s u : State} (hf : s.engState ≠ .faulted) (m : Miss) :
    KeepsModeOrFaults s (raiseMiss m u) :=
  raise_keepsModeOrFaults hf (by simp) ..

theorem decodeLoop_engState (ks : List (Fin 39)) (s : State) : (decodeLoop ks s).1.engState = s.engState := by
  rw [decodeLoop_frame]

theorem OrdinaryEffect.keepsModeOrFaults {s t : State} (h : OrdinaryEffect s t) : KeepsModeOrFaults s t := by
  cases h with
  | answered err dv v => exact .inl rfl
  | raised e hf he => exact raise_keepsModeOrFaults hf he ..
  | extByte d => exact .inl (by rw [extByteBody_frame])
  | extEnd => exact .inl rfl
  | cipher d hr =>
    obtain ⟨y, h⟩ | ⟨m, h⟩ := cipherBody_cases d s <;> rw [h]
    · exact .inl (stepRotors_engState s)
    · exact raiseMiss_keepsModeOrFaults (by simp [hr]) m
  | decodeMsg hr =>
    obtain h | ⟨m, h⟩ := decodeMsgBody_cases s <;> rw [h]
    · exact .inl (decodeLoop_engState (List.finRange 39) { s with outCount := 0 })
    · exact raiseMiss_keepsModeOrFaults (by simp [hr]) m

/-- LOAD outside FAULTED ends in READY with ok() or records an error (R130, R131, R134). -/
theorem loadBody_engState {s : State} (hf : s.engState ≠ .faulted) :
    ((loadBody s).engState = .ready ∧ (loadBody s).rsp = some 0x0000) ∨ KeepsModeOrFaults s (loadBody s) := by
  unfold loadBody
  split
  · exact .inr (raise_keepsModeOrFaults hf (by simp) ..)
  · obtain ⟨t, _ | m⟩ := startSteps [.r1, .r2, .r3] (sliceFields s)
    · exact .inl ⟨rfl, rfl⟩
    · exact .inr (raiseMiss_keepsModeOrFaults hf m)

/-- Settles O45: LOAD and SOFT_RESET by their meanings, every other word by its ordinary effect. -/
theorem engineStateTransitions : Obligations.EngineStateTransitions := by
  intro w s t h
  by_cases hload : decode w = .ok .load
  · obtain rfl | ⟨hf, rfl⟩ := gated_next (runWord_of_decode_ok hload s ▸ h)
    · exact .inl rfl
    obtain ⟨hready, hrsp⟩ | hu := loadBody_engState hf
    · cases hs : s.engState with
      | idle => exact .inr (.inl ⟨hready, rfl, hload, hrsp⟩)
      | ready => exact .inl hready
      | faulted => exact absurd hs hf
    · exact hu.imp_right fun hu => .inr (.inl hu)
  by_cases hreset : decode w = .ok .softReset
  · obtain rfl := Host.Outcome.next.inj (runWord_of_decode_ok hreset s ▸ h)
    exact .inr (.inr (.inr ⟨rfl, hreset⟩))
  · exact (runWord_ordinary hload hreset h).keepsModeOrFaults.imp_right fun hu => .inr (.inl hu)

/-! ### STATUS and the register view -/

/-- The fields of a status byte (R36). -/
theorem statusFields (part done full : Bool) (err : BitVec 3) (eng : BitVec 2) :
    let b : Byte := BitVec.ofBool part ++ BitVec.ofBool done ++ err ++ BitVec.ofBool full ++ eng
    b.extractLsb' 0 2 = eng ∧ b.getLsbD 2 = full ∧ b.extractLsb' 3 3 = err ∧ b.getLsbD 6 = done ∧
      b.getLsbD 7 = part := by
  revert part done full err eng
  decide

/-- Settles O37: `execStatus` answers the status byte, and each of its fields is read off. -/
theorem statusAnswersTheStatusByte : Obligations.StatusAnswersTheStatusByte := by
  intro s
  obtain ⟨heng, hfull, herr, hdone, hpart⟩ :=
    statusFields (extPart s) (msgDone s) (capFull s) s.errCode.bits s.engState.bits
  refine ⟨statusByte s, congrArg Host.Outcome.next (okv_eq (statusByte s) s), ?_, ?_, ?_, ?_, ?_⟩
  · rw [statusByte, heng]; cases s.engState <;> rfl
  · rw [statusByte, hfull, capFull]; simp [BitVec.toNat_eq, beq_eq_decide]
  · rw [statusByte, herr]; cases s.errCode <;> rfl
  · rw [statusByte, hdone, msgDone]; simp [BitVec.toNat_eq, beq_eq_decide]
  · rw [statusByte, hpart, extPart]; simp [BitVec.toNat_eq, bne, beq_eq_decide]

/-- The answer of READ REGS as a state (R193). -/
theorem exec_readRegs_eq {i v u : Byte} {s : State} (h : (regsTable s)[i.toNat]? = some u) (e : u = v) :
    exec (.readRegs i) s = .next { s with rsp := some (okWord v) } := by
  rw [exec_readRegs_of_entry h, okv_eq, e]

/-- Settles O40: each entry of the register view, as the byte the rule names. -/
theorem readRegsAnswersTheRegisterView : Obligations.ReadRegsAnswersTheRegisterView := by
  intro s
  refine ⟨exec_readRegs_eq rfl ?_, exec_readRegs_eq rfl rfl, exec_readRegs_eq rfl ?_, exec_readRegs_eq rfl ?_,
    exec_readRegs_eq rfl ?_, exec_readRegs_eq rfl ?_, exec_readRegs_eq rfl ?_, exec_readRegs_eq rfl rfl⟩
  · exact BitVec.eq_of_toNat_eq (by simp)
  · exact BitVec.eq_of_toNat_eq (by simp)
  · refine BitVec.eq_of_toNat_eq ?_
    simp only [BitVec.toNat_setWidth, BitVec.extractLsb'_toNat, BitVec.toNat_ofNat, Nat.shiftRight_eq_div_pow]
    omega
  · exact BitVec.eq_of_toNat_eq (by simp)
  · cases s.errCode <;> rfl
  · cases s.faultSite with
    | noLookup | reflector => rfl
    | start r | outbound r | inbound r => cases r <;> rfl

end Sys2Proof.Machine

namespace Sys2Proof.Machine

/-! ### A run of EXT_BYTE commands -/

/-- A command that answers, in front of a run of commands (R11). -/
theorem runCommands_cons {i : Instr} {is : List Instr} {s t u : State} {r : Word} {rs : List Word}
    (h : exec i s = .next t) (hr : t.rsp = some r) (ht : runCommands is t = some (rs, u)) :
    runCommands (i :: is) s = some (r :: rs, u) := by
  simp only [runCommands, h, hr, ht]

/-- EXT_BYTE answers with one response (R105). -/
theorem extByteBody_rsp (d : Byte) (s : State) : ∃ r, (extByteBody d s).rsp = some r := by
  unfold extByteBody
  split <;> exact ⟨_, rfl⟩

/-- EXT_BYTE does not move the engine state (R110). -/
@[simp] theorem extByteBody_engState (d : Byte) (s : State) : (extByteBody d s).engState = s.engState := by
  rw [extByteBody_frame]

/-- EXT_BYTE on a group not yet complete (R101). -/
theorem extByteBody_of_lt {s : State} (h : s.extCnt.toNat < 7) (d : Byte) :
    extByteBody d s = ok { s with extAcc := packBit d s, extCnt := s.extCnt + 1 } :=
  if_neg fun e => by simp [e] at h

/-- EXT_BYTE that completes the group (R103). -/
theorem extByteBody_of_eq {s : State} (h : s.extCnt.toNat = 7) (d : Byte) :
    extByteBody d s = okv (packBit d s) (capture (packBit d s) { s with extAcc := 0, extCnt := 0 }) :=
  if_pos (BitVec.eq_of_toNat_eq h)

/-- The packer places the selected bit at bit 7 − `ext_cnt` and keeps the others (R100, R101). -/
theorem packBit_getLsbD (d : Byte) (s : State) {j : Nat} (hj : j < 8) :
    (packBit d s).getLsbD (7 - j) = (s.extAcc.getLsbD (7 - j) || (decide (j = s.extCnt.toNat) && d.getLsbD 0)) := by
  have hcnt := s.extCnt.isLt
  simp only [packBit, lsb, BitVec.getLsbD_or, BitVec.getLsbD_shiftLeft, BitVec.getLsbD_setWidth,
    BitVec.getLsbD_extractLsb']
  by_cases h : j = s.extCnt.toNat
  · simp [← h, show 7 - j < 8 by omega]
  · rcases Nat.lt_or_ge (7 - j) (7 - s.extCnt.toNat) with hlt | hge
    · simp [h, hlt]
    · simp [h, show 7 - j - (7 - s.extCnt.toNat) ≠ 0 by omega]

/-! ### The capture -/

/-- The count of packed bytes saturates at 518 (R25, R104). -/
theorem capture_pktCount (p : Byte) (s : State) :
    (capture p s).pktCount.toNat = if s.pktCount.toNat < 518 then s.pktCount.toNat + 1 else s.pktCount.toNat := by
  split
  · rename_i h
    have hcount : (s.pktCount + 1).toNat = s.pktCount.toNat + 1 := by bv_omega
    rcases Nat.lt_or_ge s.pktCount.toNat 4 with h4 | h4
    · rw [capture_of_header h4, hcount]
    · rw [capture_of_payload h4 h, hcount]
  · rename_i h
    rw [capture_of_full (Nat.not_lt.1 h)]

@[simp] theorem capture_extAcc (p : Byte) (s : State) : (capture p s).extAcc = s.extAcc := by rw [capture_frame]
@[simp] theorem capture_extCnt (p : Byte) (s : State) : (capture p s).extCnt = s.extCnt := by rw [capture_frame]

/-- The capture keeps the canonical form. -/
theorem capture_wf (p : Byte) {s : State} (h : s.payload.wf = true) : (capture p s).payload.wf = true := by
  rcases Nat.lt_or_ge s.pktCount.toNat 4 with h4 | h4
  · rwa [capture_of_header h4]
  rcases Nat.lt_or_ge s.pktCount.toNat 518 with hn | hn
  · rw [capture_of_payload h4 hn]
    exact wf_write _ _ _ (by omega) h
  · rwa [capture_of_full hn]

/-- The capture writes the entry `pkt_count` − 4 and no other, and none in the header or past the end (R104). -/
theorem capture_read (p : Byte) {s : State} (h : s.payload.wf = true) (a : Nat) :
    (capture p s).payload.read a =
      if 4 ≤ s.pktCount.toNat ∧ s.pktCount.toNat < 518 ∧ a + 4 = s.pktCount.toNat then p else s.payload.read a := by
  rcases Nat.lt_or_ge s.pktCount.toNat 4 with h4 | h4
  · rw [capture_of_header h4, if_neg (by omega)]
  rcases Nat.lt_or_ge s.pktCount.toNat 518 with hn | hn
  · rw [capture_of_payload h4 hn]
    simp only [read_write _ _ _ _ h]
    exact if_congr (by omega) rfl rfl
  · rw [capture_of_full hn, if_neg (by omega)]

/-! ### The extractor along a stream of raw bytes -/

/-- The extractor's state after `n` raw bytes since a reset, bit 0 of byte `k` being `f k`: the bits of the group that is
not complete stand in the accumulator from bit 7 down, and the complete groups past the header in the capture buffer
(R51, R53, R101, R104). -/
structure Streamed (f : Nat → Bool) (n : Nat) (s : State) : Prop where
  extCnt : s.extCnt.toNat = n % 8
  extAcc : ∀ j < 8, s.extAcc.getLsbD (7 - j) = (decide (j < n % 8) && f (8 * (n / 8) + j))
  pktCount : s.pktCount.toNat = min (n / 8) 518
  payload_wf : s.payload.wf = true
  payload : ∀ i j, i < 514 → j < 8 → 4 + i < n / 8 → (s.payload.read i).getLsbD (7 - j) = f (8 * (4 + i) + j)

theorem streamed_zero (f : Nat → Bool) {s : State} (hb : AtGroupBoundary s) (hn : s.pktCount = 0)
    (hwf : s.payload.wf = true) : Streamed f 0 s := by
  obtain ⟨hacc, hcnt⟩ := hb
  constructor <;> simp [hacc, hcnt, hn, hwf]

/-- The next raw byte's bit joins those of its group. -/
theorem Streamed.packed_getLsbD {f : Nat → Bool} {n : Nat} {s : State} (h : Streamed f n s) {d : Byte}
    (hd : d.getLsbD 0 = f n) {j : Nat} (hj : j < 8) :
    (packBit d s).getLsbD (7 - j) = (decide (j < n % 8 + 1) && f (8 * (n / 8) + j)) := by
  rw [packBit_getLsbD d s hj, h.extAcc j hj, h.extCnt, hd]
  by_cases he : j = n % 8
  · subst he
    simp [Nat.div_add_mod]
  · simp [he, show j < n % 8 + 1 ↔ j < n % 8 by omega]

/-- A raw byte that leaves its group incomplete (R101). -/
theorem Streamed.next_of_lt {f : Nat → Bool} {n : Nat} {s : State} (h : Streamed f n s) (h7 : n % 8 < 7)
    {d : Byte} (hd : d.getLsbD 0 = f n) : Streamed f (n + 1) (extByteBody d s) := by
  have hcnt := h.extCnt
  have hdiv : (n + 1) / 8 = n / 8 := by omega
  have hmod : (n + 1) % 8 = n % 8 + 1 := by omega
  rw [extByteBody_of_lt (by omega)]
  constructor <;> simp only [hdiv, hmod, ok_extAcc, ok_extCnt, ok_pktCount, ok_payload]
  · bv_omega
  · exact fun j hj => h.packed_getLsbD hd hj
  · exact h.pktCount
  · exact h.payload_wf
  · exact h.payload

/-- A raw byte that completes its group, which the capture counts and, past the header, stores (R103, R104). -/
theorem Streamed.next_of_eq {f : Nat → Bool} {n : Nat} {s : State} (h : Streamed f n s) (h7 : n % 8 = 7)
    {d : Byte} (hd : d.getLsbD 0 = f n) : Streamed f (n + 1) (extByteBody d s) := by
  have hcnt := h.extCnt
  have hpkt := h.pktCount
  have hdiv : (n + 1) / 8 = n / 8 + 1 := by omega
  have hmod : (n + 1) % 8 = 0 := by omega
  rw [extByteBody_of_eq (hcnt.trans h7)]
  constructor <;>
    simp only [hdiv, hmod, okv_extAcc, okv_extCnt, okv_pktCount, okv_payload, capture_extAcc, capture_extCnt]
  · rfl
  · simp
  · rw [capture_pktCount]
    simp only [hpkt]
    split <;> omega
  · exact capture_wf _ h.payload_wf
  · intro i j hi hj hij
    rw [capture_read (s := { s with extAcc := 0, extCnt := 0 }) _ h.payload_wf]
    by_cases hnew : 4 + i = n / 8
    · rw [if_pos (by simp only [hpkt]; omega), h.packed_getLsbD hd hj, hnew]
      simp [h7, hj]
    · rw [if_neg (by simp only [hpkt]; omega)]
      exact h.payload i j hi hj (by omega)

/-- One more raw byte (R105). -/
theorem Streamed.next {f : Nat → Bool} {n : Nat} {s : State} (h : Streamed f n s) {d : Byte}
    (hd : d.getLsbD 0 = f n) : Streamed f (n + 1) (extByteBody d s) := by
  rcases Nat.lt_or_ge (n % 8) 7 with h7 | h7
  · exact h.next_of_lt h7 hd
  · exact h.next_of_eq (by omega) hd

/-- A run of EXT_BYTE outside FAULTED extends the stream by its raw bytes and keeps the engine state (R110). -/
theorem Streamed.run {f : Nat → Bool} (raws : List Byte) {n : Nat} {s : State} (hf : s.engState ≠ .faulted)
    (h : Streamed f n s) (hraws : ∀ k < raws.length, (raws.getD k 0).getLsbD 0 = f (n + k)) :
    ∃ rs t, runCommands (raws.map .extByte) s = some (rs, t) ∧ t.engState = s.engState ∧
      Streamed f (n + raws.length) t := by
  induction raws generalizing n s with
  | nil => exact ⟨[], s, rfl, rfl, h⟩
  | cons d raws ih =>
    have hd : d.getLsbD 0 = f n := hraws 0 (by simp)
    have hrest : ∀ k < raws.length, (raws.getD k 0).getLsbD 0 = f (n + 1 + k) := fun k hk => by
      rw [Nat.add_assoc, Nat.add_comm 1 k, ← hraws (k + 1) (Nat.succ_lt_succ hk), List.getD_cons_succ]
    obtain ⟨r, hr⟩ := extByteBody_rsp d s
    obtain ⟨rs, t, hrun, heng, ht⟩ := ih (by simpa using hf) (h.next hd) hrest
    refine ⟨r :: rs, t, runCommands_cons (gated_of_not_faulted hf _) hr hrun, by simpa using heng, ?_⟩
    rwa [List.length_cons, Nat.add_comm raws.length 1, ← Nat.add_assoc]

/-- Settles O15: the file's bytes from byte 54 on are the stream, and its first 518 groups are complete. -/
theorem captureHoldsTheFileBits : Obligations.CaptureHoldsTheFileBits := by
  intro file s hf hb hn hwf hlen
  have hlen' : 4144 ≤ (file.drop 54).length := by rw [List.length_drop]; omega
  obtain ⟨rs, t, hrun, heng, ht⟩ :=
    (streamed_zero (fun k => (file.getD (54 + k) 0).getLsbD 0) hb hn hwf).run (file.drop 54) hf
      fun k _ => by simp only [List.getD_eq_getElem?_getD, List.getElem?_drop, Nat.zero_add]
  rw [Nat.zero_add] at ht
  refine ⟨rs, t, hrun, BitVec.eq_of_toNat_eq (ht.pktCount.trans (Nat.min_eq_right (by omega))), heng, ?_⟩
  intro i j hi hj
  simpa only [Nat.add_assoc] using ht.payload i j hi hj (by omega)

/-! ### The field copies of LOAD (R54) -/

/-- Every field is read at its offset (R54, R130). -/
theorem sliceFields_eq (s : State) :
    sliceFields s = { s with
      stat := payloadSlice 94 0 (by decide) s
      refl := payloadSlice 94 94 (by decide) s
      scr1 := payloadSlice 94 188 (by decide) s
      scr2 := payloadSlice 94 282 (by decide) s
      scr3 := payloadSlice 94 376 (by decide) s
      notch1 := s.payload.read 470
      notch2 := s.payload.read 471
      start1 := s.payload.read 472
      start2 := s.payload.read 473
      start3 := s.payload.read 474
      cmsg := payloadSlice 39 475 (by decide) s } := rfl

/-- Entry `j` of a field is entry `a + j` of the capture buffer (R54). -/
@[simp] theorem payloadSlice_getElem {n a j : Nat} (h : a + n ≤ 514) (s : State) (hj : j < n) :
    (payloadSlice n a h s)[j] = s.payload.read (a + j) := by simp [payloadSlice, memRead]

/-! ### LOAD whose start symbols occur -/

/-- The start symbol's first place in the capture buffer is its first place in the copied field (R54, R133). -/
theorem firstAt_payloadSlice {a b : Nat} (h : a + 94 ≤ 514) {s : State} {i : Fin 94} (hi : StartsAt s a b i) :
    FirstAt (payloadSlice 94 a h s) (s.payload.read b) i := by
  simp only [FirstAt, Fin.getElem_fin, payloadSlice_getElem]
  exact hi

/-- A step to a symbol that occurs rotates the wheel to its first place (R151). -/
theorem stepTo_of_firstAt {w : Wheel} {x : Symbol} {i : Fin 94} (h : FirstAt w x i) : stepTo w x = some (rotl w i) :=
  stepTo_eq_some.2 ⟨i, h, rfl⟩

/-- The start steps of the three rotors where every start symbol occurs (R133). -/
theorem startSteps_of_firstAt {s : State} {i1 i2 i3 : Fin 94} (h1 : FirstAt s.scr1 s.start1 i1)
    (h2 : FirstAt s.scr2 s.start2 i2) (h3 : FirstAt s.scr3 s.start3 i3) :
    startSteps [.r1, .r2, .r3] s =
      ({ s with scr1 := rotl s.scr1 i1, scr2 := rotl s.scr2 i2, scr3 := rotl s.scr3 i3 }, none) := by
  simp only [startSteps, scr_r1, scr_r2, scr_r3, start_r1, start_r2, start_r3, setScr_r1, setScr_r2, setScr_r3,
    stepTo_of_firstAt h1, stepTo_of_firstAt h2, stepTo_of_firstAt h3]

/-- LOAD of a full capture whose start symbols occur (R130, R132, R133). -/
theorem loadBody_of_startsAt {s : State} {i1 i2 i3 : Fin 94} (hfull : 518 ≤ s.pktCount.toNat)
    (h1 : StartsAt s 188 472 i1) (h2 : StartsAt s 282 473 i2) (h3 : StartsAt s 376 474 i3) :
    loadBody s = { sliceFields s with
      scr1 := rotl (sliceFields s).scr1 i1
      scr2 := rotl (sliceFields s).scr2 i2
      scr3 := rotl (sliceFields s).scr3 i3
      outCount := 0
      engState := .ready
      rsp := some 0x0000 } := by
  have hsteps := startSteps_of_firstAt (s := sliceFields s) (firstAt_payloadSlice (by decide) h1)
    (firstAt_payloadSlice (by decide) h2) (firstAt_payloadSlice (by decide) h3)
  simp only [loadBody, Nat.not_lt.2 hfull, if_false, hsteps, ok_eq]

/-- Settles O19: the three start steps succeed, and each register is read off the state LOAD leaves. -/
theorem loadBuildsTheEngine : Obligations.LoadBuildsTheEngine := by
  intro s i1 i2 i3 hf hfull h1 h2 h3
  have hexec := gated_of_not_faulted hf loadBody
  rw [loadBody_of_startsAt hfull h1 h2 h3, sliceFields_eq] at hexec
  refine ⟨_, hexec, fun j => ?_, fun k => payloadSlice_getElem (by decide) s k.isLt, rfl⟩
  simp only [Fin.getElem_fin, rotl_getElem, payloadSlice_getElem, Nat.zero_add, and_self]

end Sys2Proof.Machine

namespace Sys2Proof

/-! ### The decoder, by its kinds of command (R73, R74, R75) -/

/-- The decoder reads back the fields of every command (R73, R74). -/
theorem decodeFields_fields (i : Instr) : decodeFields i.fields = .ok i := by
  cases i <;> rfl

/-- Settles O2: the fields survive the word, and the decoder reads back every command's fields. -/
theorem encodeThenDecodeGivesTheCommand : Obligations.EncodeThenDecodeGivesTheCommand := by
  intro i
  rw [decode, encode, fieldsOf_word, decodeFields_fields]

/-- Settles O1: each word is the encoding of its command. -/
theorem tableWordsDecodeToTheirCommands : Obligations.TableWordsDecodeToTheirCommands :=
  have h := encodeThenDecodeGivesTheCommand
  ⟨h .nop, h (.extByte 0xFE), h .extEnd, h .load, h (.cipher 0x41), h .decodeMsg, h (.readScr1 0x5D),
    h (.readRegs 7), h .status, h .softReset⟩

theorem decodeBare_eq_ok {f : CmdFields} {i j : Instr} :
    decodeBare f i = .ok j ↔ f.sel = 0 ∧ f.d = 0 ∧ i = j := by
  unfold decodeBare
  split
  · simp_all
  · split <;> simp_all

theorem decodeOperand_eq_ok {f : CmdFields} {i : Byte → Instr} {j : Instr} :
    decodeOperand f i = .ok j ↔ f.sel = 0 ∧ i f.d = j := by
  unfold decodeOperand
  split <;> simp_all

/-- A command without selector and operand is decoded from its own fields only. -/
theorem fields_of_decodeBare {f : CmdFields} {i j : Instr} {n : Nat} (h : decodeBare f i = .ok j)
    (hop : f.op.toNat = n) (hi : i.fields = ⟨BitVec.ofNat 4 n, 0, 0⟩) : j.fields = f := by
  obtain ⟨hsel, hd, rfl⟩ := decodeBare_eq_ok.1 h
  rw [hi, ← hop, ← hsel, ← hd, BitVec.ofNat_toNat, BitVec.setWidth_eq]

/-- A command with an operand is decoded from its own fields only. -/
theorem fields_of_decodeOperand {f : CmdFields} {i : Byte → Instr} {j : Instr} {n : Nat}
    (h : decodeOperand f i = .ok j) (hop : f.op.toNat = n)
    (hi : (i f.d).fields = ⟨BitVec.ofNat 4 n, 0, f.d⟩) : j.fields = f := by
  obtain ⟨hsel, rfl⟩ := decodeOperand_eq_ok.1 h
  rw [hi, ← hop, ← hsel, BitVec.ofNat_toNat, BitVec.setWidth_eq]

/-- READ is decoded from its own fields only. -/
theorem fields_of_decodeRead {f : CmdFields} {j : Instr} (h : decodeRead f = .ok j) (hop : f.op.toNat = 6) :
    j.fields = f := by
  obtain ⟨op, sel, d⟩ := f
  obtain rfl : op = 6 := BitVec.eq_of_toNat_eq hop
  unfold decodeRead at h
  split at h <;> rename_i hsel <;> cases h <;>
    exact congrArg (CmdFields.mk 6 · d) (BitVec.eq_of_toNat_eq hsel.symm)

/-- A command is decoded from its own fields only (R77). -/
theorem fields_of_decodeFields {f : CmdFields} {i : Instr} (h : decodeFields f = .ok i) : i.fields = f := by
  unfold decodeFields at h
  split at h <;> rename_i hop
  · exact fields_of_decodeBare h hop rfl
  · exact fields_of_decodeOperand h hop rfl
  · exact fields_of_decodeBare h hop rfl
  · exact fields_of_decodeBare h hop rfl
  · exact fields_of_decodeOperand h hop rfl
  · exact fields_of_decodeBare h hop rfl
  · exact fields_of_decodeRead h hop
  · exact fields_of_decodeBare h hop rfl
  · exact fields_of_decodeBare h hop rfl
  · cases h

/-- Settles O3: the decoded command has the word's fields, and a word is determined by its fields. -/
theorem decodeThenEncodeGivesTheWord : Obligations.DecodeThenEncodeGivesTheWord := by
  intro w i h
  rw [encode, fields_of_decodeFields h, word_fieldsOf]

/-! ### The illegal words (R75) -/

theorem decodeBare_isOk (f : CmdFields) (i : Instr) : (decodeBare f i).isOk = (f.sel == 0 && f.d == 0) := by
  unfold decodeBare
  split
  · simp_all [Except.isOk, Except.toBool]
  · split <;> simp_all [Except.isOk, Except.toBool]

theorem decodeOperand_isOk (f : CmdFields) (i : Byte → Instr) : (decodeOperand f i).isOk = (f.sel == 0) := by
  unfold decodeOperand
  split <;> simp_all [Except.isOk, Except.toBool]

theorem decodeRead_isOk (f : CmdFields) : (decodeRead f).isOk = decide (f.sel.toNat ≤ 9) := by
  unfold decodeRead
  split
  case h_11 =>
    have hsel : ¬f.sel.toNat ≤ 9 := by simp only [imp_false] at *; omega
    simp [hsel, Except.isOk, Except.toBool]
  all_goals simp [*, Except.isOk, Except.toBool]

/-- The decoder accepts exactly the legal fields (R73, R74, R75). -/
theorem decodeFields_isOk (f : CmdFields) : (decodeFields f).isOk = f.WellFormed := by
  unfold decodeFields
  split
  case h_10 =>
    have hop : ¬f.op.toNat ≤ 7 ∧ f.op.toNat ≠ 15 := by simp only [imp_false] at *; omega
    simp [hop, CmdFields.WellFormed, CmdFields.opKnown, Except.isOk, Except.toBool]
  all_goals
    simp [*, decodeBare_isOk, decodeOperand_isOk, decodeRead_isOk, CmdFields.WellFormed, CmdFields.opKnown,
      CmdFields.selLegal, CmdFields.operandLegal]

/-- The decoder rejects exactly the words whose fields are not legal (R75). -/
theorem decode_error_iff (w : Word) : (∃ e, decode w = .error e) ↔ (fieldsOf w).WellFormed = false := by
  rw [← decodeFields_isOk, ← decode]
  cases decode w <;> simp [Except.isOk, Except.toBool]

/-- A word as the number of its three fields (R70). -/
theorem toNat_eq_fieldsOf (w : Word) :
    w.toNat = (fieldsOf w).op.toNat * 4096 + (fieldsOf w).sel.toNat * 256 + (fieldsOf w).d.toNat := by
  simp only [fieldsOf, BitVec.extractLsb'_toNat, Nat.shiftRight_eq_div_pow]
  omega

/-- The legal fields as bounds on three numbers (R73, R74). -/
theorem CmdFields.wellFormed_iff (f : CmdFields) : f.WellFormed = true ↔
    (f.op.toNat ≤ 7 ∨ f.op.toNat = 15) ∧ (f.op.toNat = 6 → f.sel.toNat ≤ 9) ∧
      (f.op.toNat ≠ 6 → f.sel.toNat = 0) ∧
      (f.op.toNat = 1 ∨ f.op.toNat = 4 ∨ f.op.toNat = 6 ∨ f.d.toNat = 0) := by
  by_cases h : f.op.toNat = 6 <;>
    simp [WellFormed, opKnown, selLegal, operandLegal, BitVec.toNat_eq, h, and_assoc, or_assoc]

/-- Settles O4: the fields that are not legal, as ranges of the word's number. -/
theorem illegalWordsAreTheListedRanges : Obligations.IllegalWordsAreTheListedRanges := by
  intro w
  have hop := (fieldsOf w).op.isLt
  have hsel := (fieldsOf w).sel.isLt
  have hd := (fieldsOf w).d.isLt
  rw [decode_error_iff, ← Bool.not_eq_true, CmdFields.wellFormed_iff, toNat_eq_fieldsOf]
  omega

/-- A reserved opcode or a reserved READ selector is illegal (R76). -/
theorem decode_error_of_reserved {w : Word}
    (h : (8 ≤ (fieldsOf w).op.toNat ∧ (fieldsOf w).op.toNat ≤ 14) ∨
      ((fieldsOf w).op.toNat = 6 ∧ 10 ≤ (fieldsOf w).sel.toNat)) : ∃ e, decode w = .error e := by
  rw [decode_error_iff, ← Bool.not_eq_true, CmdFields.wellFormed_iff]
  omega

end Sys2Proof

namespace Sys2Proof.Machine

/-! ### Running an illegal word (R75, R76, R227) -/

/-- Outside FAULTED an illegal word raises ILLEGAL_CMD (R75). -/
theorem runWord_illegal_of_not_faulted {w : Word} {s : State} (hw : ∃ e, decode w = .error e)
    (hf : s.engState ≠ .faulted) : runWord w s = .next (Raised s .illegalCmd 0x8003) := by
  obtain ⟨e, he⟩ := hw
  rw [runWord_of_decode_error he, illegalWord, gated_of_not_faulted hf, raisePlain_eq]
  rfl

/-- Settles O5: the reserved encodings are illegal. -/
theorem reservedEncodingsRaiseIllegalCmd : Obligations.ReservedEncodingsRaiseIllegalCmd := by
  intro w s hf hw
  have herr := decode_error_of_reserved hw
  exact ⟨herr, runWord_illegal_of_not_faulted herr hf⟩

/-- Settles O6: the two branches of the FAULTED gate. -/
theorem illegalWordRaisesOrIsAnswered : Obligations.IllegalWordRaisesOrIsAnswered := by
  intro w s hw
  refine ⟨runWord_illegal_of_not_faulted hw, fun hf => ?_⟩
  obtain ⟨e, he⟩ := hw
  rw [runWord_of_decode_error he, illegalWord, gated_of_faulted hf, answerFaulted_eq]

/-! ### The response of a word (R71) -/

/-- The fields of a response word (R71). -/
theorem responseWord_err (err dv : Bool) (v : Byte) : (responseWord err dv v).getLsbD 15 = err := by
  simp only [responseWord, BitVec.getLsbD_append]
  simp

theorem responseWord_dv (err dv : Bool) (v : Byte) : (responseWord err dv v).getLsbD 14 = dv := by
  simp only [responseWord, BitVec.getLsbD_append]
  simp

theorem responseWord_reserved (err dv : Bool) (v : Byte) : (responseWord err dv v).extractLsb' 8 6 = 0 := by
  apply BitVec.eq_of_getLsbD_eq
  intro j hj
  simp only [responseWord, BitVec.getLsbD_extractLsb', BitVec.getLsbD_append]
  simp [hj]

theorem responseWord_data (err dv : Bool) (v : Byte) : (responseWord err dv v).extractLsb' 0 8 = v := by
  apply BitVec.eq_of_getLsbD_eq
  intro j hj
  simp only [responseWord, BitVec.getLsbD_extractLsb', BitVec.getLsbD_append]
  simp [hj]

/-- A state that holds a command's response, where `c` is the error code that stands unless the command raises: the
responses `ok()` and `ok(v)` (R10), and the recorded error in FAULTED (R224, R227). -/
inductive Answered (c : ErrCode) (t : State) : Prop
  | ok : t.rsp = some (responseWord false false 0) → t.errCode = c → Answered c t
  | result (v : Byte) : t.rsp = some (responseWord false true v) → t.errCode = c → Answered c t
  | error : t.rsp = some (responseWord true false (t.errCode.bits.setWidth 8)) → t.engState = .faulted →
      Answered c t

/-- A response by its fields: each kind of response, and what goes with it (R71). -/
theorem Answered.fields {c : ErrCode} {t : State} (h : Answered c t) :
    ∃ err dv v, t.rsp = some (responseWord err dv v) ∧ ¬(err = true ∧ dv = true) ∧
      (err = true → t.engState = .faulted ∧ v = t.errCode.bits.setWidth 8) ∧ (err = false → t.errCode = c) ∧
      (err = false → dv = false → v = 0) := by
  cases h with
  | ok hrsp hcode => exact ⟨_, _, _, hrsp, by simp, by simp, fun _ => hcode, fun _ _ => rfl⟩
  | result v hrsp hcode => exact ⟨_, _, _, hrsp, by simp, by simp, fun _ => hcode, by simp⟩
  | error hrsp hfaulted => exact ⟨_, _, _, hrsp, by simp, fun _ => ⟨hfaulted, rfl⟩, by simp, by simp⟩

theorem raise_answered (c e : ErrCode) (site : FaultSite) (sym : Symbol) (s : State) :
    Answered c (raise e site sym s) := .error rfl rfl

theorem ok_answered {c : ErrCode} {s : State} (h : s.errCode = c) : Answered c (ok s) := .ok rfl h

theorem okv_answered {c : ErrCode} {s : State} (v : Byte) (h : s.errCode = c) : Answered c (okv v s) :=
  .result v rfl h

/-- In FAULTED the gate answers the recorded error (R227). -/
theorem gated_answered {body : State → State} {s : State} (h : Answered s.errCode (body s)) :
    ∃ t, gated body s = .next t ∧ Answered s.errCode t := by
  by_cases hf : s.engState = .faulted
  · exact ⟨_, gated_of_faulted hf body, .error rfl hf⟩
  · exact ⟨_, gated_of_not_faulted hf body, h⟩

theorem whenReady_answered {body : State → State} {s : State} (h : Answered s.errCode (body s)) :
    Answered s.errCode (whenReady body s) := by
  unfold whenReady
  split
  · exact raise_answered ..
  · exact h

theorem readEntry_answered (table : List Byte) (i : Byte) (s : State) :
    Answered s.errCode (readEntry table i s) := by
  obtain ⟨v, -, h⟩ | ⟨-, h⟩ := readEntry_cases table i s <;> rw [h]
  · exact okv_answered v rfl
  · exact raise_answered ..

/-- A READ of a table answers an entry or raises (R191). -/
theorem readTable_answered (table : State → List Byte) (i : Byte) (s : State) :
    ∃ t, readTable table i s = .next t ∧ Answered s.errCode t :=
  gated_answered (whenReady_answered (readEntry_answered (table s) i s))

theorem extByteBody_answered (d : Byte) (s : State) : Answered s.errCode (extByteBody d s) := by
  unfold extByteBody
  split
  · exact okv_answered _ (by rw [capture_frame])
  · exact ok_answered rfl

theorem loadBody_answered (s : State) : Answered s.errCode (loadBody s) := by
  unfold loadBody
  split
  · exact raise_answered ..
  · cases hsteps : startSteps [.r1, .r2, .r3] (sliceFields s) with
    | mk t o =>
      cases o with
      | none => exact ok_answered (loadSteps_sameTracked hsteps).errCode.symm
      | some m => exact raise_answered ..

theorem cipherBody_answered (d : Symbol) (s : State) : Answered s.errCode (cipherBody d s) := by
  obtain ⟨y, h⟩ | ⟨m, h⟩ := cipherBody_cases d s <;> rw [h]
  · exact okv_answered y (by rw [stepRotors_eq])
  · exact raise_answered ..

theorem decodeMsgBody_answered (s : State) : Answered s.errCode (decodeMsgBody s) := by
  obtain h | ⟨m, h⟩ := decodeMsgBody_cases s <;> rw [h]
  · exact ok_answered (by rw [decodeLoop_frame])
  · exact raise_answered ..

/-- READ REGS answers an entry in every state, or is gated (R191, R193). -/
theorem readRegs_answered (i : Byte) (s : State) :
    ∃ t, exec (.readRegs i) s = .next t ∧ Answered s.errCode t := by
  by_cases hi : i.toNat < 8
  · exact ⟨_, exec_readRegs_of_entry (List.getElem?_eq_getElem hi), okv_answered _ rfl⟩
  · have h : exec (.readRegs i) s = gated (raisePlain .range) s := by simp [exec, execReadRegs, hi]
    exact h ▸ gated_answered (raise_answered ..)

/-- Every command answers, and none but SOFT_RESET clears the recorded error (R60, R224). -/
theorem exec_answered (i : Instr) (s : State) :
    ∃ t, exec i s = .next t ∧ (Answered s.errCode t ∨ (i = .softReset ∧ Answered .noError t)) := by
  have ordinary {o : Host.Outcome State Fault Refusal} (h : ∃ t, o = .next t ∧ Answered s.errCode t) :
      ∃ t, o = .next t ∧ (Answered s.errCode t ∨ (i = .softReset ∧ Answered .noError t)) :=
    h.imp fun _ ht => ht.imp_right .inl
  cases i with
  | nop => exact ordinary ⟨_, rfl, ok_answered rfl⟩
  | extByte d => exact ordinary (gated_answered (extByteBody_answered d s))
  | extEnd => exact ordinary (gated_answered (ok_answered rfl))
  | load => exact ordinary (gated_answered (loadBody_answered s))
  | cipher d => exact ordinary (gated_answered (whenReady_answered (cipherBody_answered d s)))
  | decodeMsg => exact ordinary (gated_answered (whenReady_answered (decodeMsgBody_answered s)))
  | readStat _ | readRefl _ | readScr1 _ | readScr2 _ | readScr3 _ | readNotch _ | readStart _ | readCmsg _
  | readPlain _ => exact ordinary (readTable_answered ..)
  | readRegs i => exact ordinary (readRegs_answered i s)
  | status => exact ordinary ⟨_, rfl, okv_answered _ rfl⟩
  | softReset => exact ⟨_, rfl, .inr ⟨rfl, ok_answered rfl⟩⟩

/-- Every word answers, and none but SOFT_RESET clears the recorded error (R60, R224). -/
theorem runWord_answered (w : Word) (s : State) : ∃ t c, runWord w s = .next t ∧ Answered c t ∧
    (c = s.errCode ∨ (decode w = .ok .softReset ∧ c = .noError)) := by
  cases hw : decode w with
  | ok i =>
    obtain ⟨t, ht, h | ⟨rfl, h⟩⟩ := exec_answered i s
    · exact ⟨t, _, (runWord_of_decode_ok hw s).trans ht, h, .inl rfl⟩
    · exact ⟨t, _, (runWord_of_decode_ok hw s).trans ht, h, .inr ⟨rfl, rfl⟩⟩
  | error e =>
    obtain ⟨t, ht, h⟩ := gated_answered (s := s) (raise_answered s.errCode .illegalCmd .noLookup 0 s)
    exact ⟨t, _, (runWord_of_decode_error hw s).trans ht, h, .inl rfl⟩

/-- Settles O9: every word answers, and the response's fields are those of its kind. -/
theorem everyWordGetsOneResponse : Obligations.EveryWordGetsOneResponse := by
  intro w s
  obtain ⟨t, c, hrun, hans, hc⟩ := runWord_answered w s
  obtain ⟨err, dv, v, hrsp, hboth, herr, hcode, hdata⟩ := hans.fields
  refine ⟨t, _, hrun, hrsp, responseWord_reserved err dv v, ?_⟩
  simp only [responseWord_err, responseWord_dv, responseWord_data]
  exact ⟨hboth, herr, fun he => hcode he ▸ hc, hdata⟩

/-! ### The ports (R81, R236, R260) -/

/-- An edge of the `rst_n` pin at 0 (R260). -/
theorem step_of_pinReset {s : State} {p : PortInput} {rest : List PortInput} (hin : s.inputs = p :: rest)
    (hrst : p.rstN = false) : step s = .next (pinReset { s with inputs := rest }) := by
  simp [step, portAction, hin, hrst]

/-- An edge at which a response is held: the host takes it or not, and no command is accepted (R81). -/
theorem step_of_held {s : State} {p : PortInput} {rest : List PortInput} {r : Word} (hin : s.inputs = p :: rest)
    (hrst : p.rstN = true) (hrsp : s.rsp = some r) :
    step s = .next
      (if p.rspReady then takeResponse r { s with inputs := rest } else { s with inputs := rest }) := by
  cases hready : p.rspReady <;> simp [step, portAction, rspPort, hin, hrst, hrsp, hready]

/-- An edge at which no response is held and no command is offered (R236). -/
theorem step_of_not_offered {s : State} {p : PortInput} {rest : List PortInput} (hin : s.inputs = p :: rest)
    (hrst : p.rstN = true) (hrsp : s.rsp = none) (hcmd : p.cmd = none) :
    step s = .next { s with inputs := rest } := by
  simp [step, portAction, rspPort, hin, hrst, hrsp, hcmd]

/-- Settles O47: the edges with a response held, and those with none. -/
theorem responseIsHeldUntilTaken : Obligations.ResponseIsHeldUntilTaken := by
  intro s p rest hin hrst
  constructor
  · intro r hrsp
    refine ⟨by simp [cmdReady, hrsp], by simp [rspPort, hrst, hrsp], ?_, ?_⟩ <;> intro hready <;>
      rw [step_of_held hin hrst hrsp, hready] <;> rfl
  · intro hrsp
    exact ⟨by simp [cmdReady, hrst, hrsp], step_of_not_offered hin hrst hrsp⟩

/-- Settles O48: the edge is a reset by the pin, which holds no response. -/
theorem resetPinLosesTheResponse : Obligations.ResetPinLosesTheResponse := by
  intro s p rest hin hrst
  refine ⟨by simp [cmdReady, hrst], by simp [rspPort, hrst], _, step_of_pinReset hin hrst, ?_, rfl, rfl, rfl, ?_⟩
  · exact { resetState_resetValues { s with inputs := rest } with }
  · intro q hq
    simp [cmdReady, hq]

/-- Settles O49: no edge is left, or the edge takes the held response, or it leaves the block as it is. -/
theorem blockHoldsItsStateBetweenCommands : Obligations.BlockHoldsItsStateBetweenCommands := by
  intro s
  refine ⟨fun hin => by simp [step, portAction, hin], fun p rest hin hrst hcmd => ?_⟩
  cases hrsp : s.rsp with
  | none => exact ⟨none, s.taken, by rw [step_of_not_offered hin hrst hrsp hcmd, ← hrsp]⟩
  | some r =>
    rw [step_of_held hin hrst hrsp]
    cases p.rspReady
    · exact ⟨s.rsp, s.taken, rfl⟩
    · exact ⟨none, r :: s.taken, rfl⟩

/-! ### The assembler (R78) -/

theorem assemble_of_wellFormed {line : AsmLine} (h : line.WellFormed = true) :
    assemble line = some ((expand line).map encode) := if_pos h

theorem assemble_of_not_wellFormed {line : AsmLine} (h : line.WellFormed = false) : assemble line = none := by
  simp [assemble, h]

/-- An 8-bit operand stands in the low bits of its word (R70). -/
theorem word_operand (op sel : BitVec 4) {n : Nat} (hn : n < 256) :
    CmdFields.word ⟨op, sel, BitVec.ofNat 8 n⟩ = CmdFields.word ⟨op, sel, 0⟩ ||| BitVec.ofNat 16 n := by
  apply BitVec.eq_of_getLsbD_eq
  intro j hj
  have hhigh (h : 8 ≤ j) : n.testBit j = false :=
    Nat.testBit_lt_two_pow (Nat.lt_of_lt_of_le hn (Nat.pow_le_pow_right (n := 2) (by decide) h))
  simp only [CmdFields.word, BitVec.getLsbD_or, BitVec.getLsbD_append, BitVec.getLsbD_ofNat, hj]
  by_cases h : j < 8
  · simp [h]
  · simp [h, hhigh (by omega)]

/-- Each selector name is that of the READ with its number (R74). -/
theorem readNamed_selectorNames (k : Fin 10) (b : Byte) :
    ∃ i, readNamed (selectorNames[k]'(by exact k.isLt)) b = some i ∧ i.fields = ⟨6, BitVec.ofNat 4 k, b⟩ := by
  fin_cases k <;> exact ⟨_, rfl, rfl⟩

/-- The upper byte of a READ's word (R74). -/
theorem word_read : ∀ k : Fin 10,
    CmdFields.word ⟨6, BitVec.ofNat 4 k, 0⟩ = 0x6000#16 ||| (BitVec.ofNat 16 k <<< 8) := by decide

/-- `READ SEL, n` with a name of the list and an operand in range (R78). -/
theorem assemble_read {k : Fin 10} {n : Nat} (hn : n < 256) :
    assemble (.read (selectorNames[k]'(by exact k.isLt)) (.num n)) =
      some [0x6000#16 ||| (BitVec.ofNat 16 k <<< 8) ||| BitVec.ofNat 16 n] := by
  obtain ⟨i, hi, hfields⟩ := readNamed_selectorNames k (BitVec.ofNat 8 n)
  have hwf : (AsmLine.read (selectorNames[k]'(by exact k.isLt)) (.num n)).WellFormed = true := by
    have hname : (selectorNames[k]'(by exact k.isLt)) ∈ selectorNames := List.getElem_mem _
    simpa [AsmLine.WellFormed, Operand.WellFormed, Operand.value, hn] using hname
  rw [assemble_of_wellFormed hwf, ← word_read, ← word_operand _ _ hn, ← hfields]
  simp [expand, operandByte, Operand.value, hi, encode]

/-- Settles O7: an operand in range stands below its command's upper byte, and a line not well formed has no word. -/
theorem assemblerProducesTheTableWords : Obligations.AssemblerProducesTheTableWords := by
  refine ⟨rfl, rfl, rfl, rfl, rfl, rfl, fun n sel => ⟨fun hn => ?_, fun hn => ?_, fun hsel => ?_⟩⟩
  · have hop : (Operand.num n).WellFormed = true := decide_eq_true hn
    refine ⟨?_, ?_, fun k => assemble_read hn⟩
    · rw [assemble_of_wellFormed (line := .extByte (.num n)) hop]
      exact congrArg (fun w => some [w]) (word_operand 1 0 hn)
    · rw [assemble_of_wellFormed (line := .cipher (.num n)) hop]
      exact congrArg (fun w => some [w]) (word_operand 4 0 hn)
  · have hop : (Operand.num n).WellFormed = false := decide_eq_false (Nat.not_lt.2 hn)
    exact ⟨assemble_of_not_wellFormed hop, assemble_of_not_wellFormed hop,
      assemble_of_not_wellFormed (by simp [AsmLine.WellFormed, hop])⟩
  · exact assemble_of_not_wellFormed (by simp [AsmLine.WellFormed, hsel])

/-! ### PUSH_PACKED and the packer (R79, R101, R103) -/

/-- The packer holds the first `n` bits of `p`, bit 7 first, and no other (R53, R101). -/
structure Holding (p : Byte) (n : Nat) (s : State) : Prop where
  extCnt : s.extCnt.toNat = n
  extAcc : ∀ j < 8, s.extAcc.getLsbD (7 - j) = (decide (j < n) && p.getLsbD (7 - j))

theorem holding_zero (p : Byte) {s : State} (h : AtGroupBoundary s) : Holding p 0 s := by
  obtain ⟨hacc, hcnt⟩ := h
  constructor <;> simp [hacc, hcnt]

/-- The next bit of `p` joins those held. -/
theorem Holding.packed_getLsbD {p : Byte} {n : Nat} {s : State} (h : Holding p n s) {d : Byte}
    (hd : d.getLsbD 0 = p.getLsbD (7 - n)) {j : Nat} (hj : j < 8) :
    (packBit d s).getLsbD (7 - j) = (decide (j < n + 1) && p.getLsbD (7 - j)) := by
  rw [packBit_getLsbD d s hj, h.extAcc j hj, h.extCnt, hd]
  by_cases he : j = n
  · simp [he]
  · simp [he, show j < n + 1 ↔ j < n by omega]

/-- A bit that leaves the group incomplete (R101). -/
theorem Holding.next {p : Byte} {n : Nat} {s : State} (h : Holding p n s) (hn : n < 7) {d : Byte}
    (hd : d.getLsbD 0 = p.getLsbD (7 - n)) :
    (extByteBody d s).rsp = some 0x0000 ∧ Holding p (n + 1) (extByteBody d s) := by
  have hcnt := h.extCnt
  rw [extByteBody_of_lt (by omega)]
  refine ⟨rfl, ?_, fun j hj => h.packed_getLsbD hd hj⟩
  simp only [ok_extCnt]
  bv_omega

/-- The eighth bit emits `p` and clears the packer (R103). -/
theorem Holding.last {p : Byte} {s : State} (h : Holding p 7 s) {d : Byte} (hd : d.getLsbD 0 = p.getLsbD 0) :
    (extByteBody d s).rsp = some (okWord p) ∧ AtGroupBoundary (extByteBody d s) := by
  have hp : packBit d s = p := by
    apply BitVec.eq_of_getLsbD_eq
    intro i hi
    have hbit := h.packed_getLsbD hd (j := 7 - i) (by omega)
    simpa [show 7 - (7 - i) = i by omega, show 7 - i < 8 by omega] using hbit
  rw [extByteBody_of_eq h.extCnt, hp, okv_eq]
  exact ⟨rfl, capture_extAcc .., capture_extCnt ..⟩

/-- The raw bytes of the bits of `p` not yet held complete its group: `ok()` to each but the last, and `ok(p)`. -/
theorem Holding.run {p : Byte} (raws : List Byte) {n : Nat} {s : State} (hf : s.engState ≠ .faulted)
    (h : Holding p n s) (hn : n < 8) (hlen : n + raws.length = 8)
    (hraws : ∀ k (hk : k < raws.length), raws[k].getLsbD 0 = p.getLsbD (7 - (n + k))) :
    ∃ t, runCommands (raws.map .extByte) s = some (List.replicate (7 - n) 0x0000#16 ++ [okWord p], t) ∧
      t.engState = s.engState ∧ AtGroupBoundary t := by
  induction raws generalizing n s with
  | nil => exact absurd hlen (Nat.ne_of_lt hn)
  | cons d raws ih =>
    rw [List.length_cons] at hlen
    have hd : d.getLsbD 0 = p.getLsbD (7 - n) := hraws 0 (by simp)
    have hexec : exec (.extByte d) s = .next (extByteBody d s) := gated_of_not_faulted hf _
    rcases Nat.lt_or_ge n 7 with h7 | h7
    · obtain ⟨hrsp, hnext⟩ := h.next h7 hd
      have hrest (k : Nat) (hk : k < raws.length) : raws[k].getLsbD 0 = p.getLsbD (7 - (n + 1 + k)) := by
        simpa [Nat.add_assoc, Nat.add_comm 1 k] using hraws (k + 1) (Nat.succ_lt_succ hk)
      obtain ⟨t, hrun, heng, hb⟩ := ih (by simpa using hf) hnext (by omega) (by omega) hrest
      rw [show 7 - n = 7 - (n + 1) + 1 by omega, List.replicate_succ]
      exact ⟨t, runCommands_cons hexec hrsp hrun, by simpa using heng, hb⟩
    · obtain rfl : n = 7 := by omega
      obtain rfl : raws = [] := List.eq_nil_of_length_eq_zero (by omega)
      obtain ⟨hrsp, hb⟩ := h.last hd
      exact ⟨_, runCommands_cons hexec hrsp rfl, extByteBody_engState .., hb⟩

/-- The raw byte that stands for bit `j` of `p` (R79). -/
theorem rawOfBit_eq (p : Byte) (j : Nat) : (p >>> j) &&& 1 = if p.getLsbD j then 1 else 0 := by
  have h : (p >>> j) &&& 1 = BitVec.setWidth 8 (BitVec.ofBool ((p >>> j).getLsbD 0)) :=
    BitVec.and_one_eq_setWidth_ofBool_getLsbD
  rw [h, BitVec.getLsbD_ushiftRight, Nat.add_zero]
  cases p.getLsbD j <;> rfl

/-- The word of that raw byte (R79). -/
theorem encode_rawOfBit (p : Byte) (j : Nat) :
    encode (.extByte ((p >>> j) &&& 1)) = if p.getLsbD j then 0x1001#16 else 0x1000#16 := by
  rw [rawOfBit_eq]
  cases p.getLsbD j <;> rfl

theorem rawOfBit_getLsbD_zero (p : Byte) (j : Nat) : ((p >>> j) &&& 1).getLsbD 0 = p.getLsbD j := by
  rw [rawOfBit_eq]
  cases p.getLsbD j <;> rfl

theorem expand_pushPacked (p : Byte) : expand (.pushPacked [.num p.toNat]) = pushPacked p := by
  simp [expand, operandByte, Operand.value]

/-- The raw bytes of PUSH_PACKED: the bits of `p`, bit 7 first (R79). -/
def rawsOf (p : Byte) : List Byte := [7, 6, 5, 4, 3, 2, 1, 0].map fun j => (p >>> j) &&& 1

theorem pushPacked_eq (p : Byte) : pushPacked p = (rawsOf p).map .extByte := rfl

theorem rawsOf_getLsbD_zero (p : Byte) (k : Nat) (hk : k < (rawsOf p).length) :
    (rawsOf p)[k].getLsbD 0 = p.getLsbD (7 - k) := by
  have hindex : ∀ k (hk : k < 8), [7, 6, 5, 4, 3, 2, 1, 0][k] = 7 - k := by decide
  simp only [rawsOf, List.getElem_map, rawOfBit_getLsbD_zero]
  exact congrArg p.getLsbD (hindex k hk)

/-- Settles O8: the words bit by bit, and the run of a whole group from its boundary. -/
theorem pushPackedEmitsItsByte : Obligations.PushPackedEmitsItsByte := by
  intro s p hf hb
  rw [expand_pushPacked]
  constructor
  · have hwf : (AsmLine.pushPacked [.num p.toNat]).WellFormed = true := by
      simp [AsmLine.WellFormed, Operand.WellFormed, Operand.value, p.isLt]
    rw [assemble_of_wellFormed hwf, expand_pushPacked, pushPacked, List.map_map]
    exact congrArg some (List.map_congr_left fun j _ => encode_rawOfBit p j)
  · rw [pushPacked_eq]
    obtain ⟨t, hrun, -, hbt⟩ := (holding_zero p hb).run (rawsOf p) hf (by decide) rfl fun k hk => by
      rw [rawsOf_getLsbD_zero, Nat.zero_add]
    exact ⟨t, hrun, hbt⟩

end Sys2Proof.Machine

namespace Sys2Proof.Machine

/-! ### EXT_BYTE and EXT_END, one command -/

/-- The accumulator after the selected bit is placed, from bit 0 up (R100, R101). -/
theorem packBit_getLsbD_low (d : Byte) (s : State) {j : Nat} (hj : j < 8) :
    (packBit d s).getLsbD j = (s.extAcc.getLsbD j || (decide (j + s.extCnt.toNat = 7) && d.getLsbD 0)) := by
  have hcnt := s.extCnt.isLt
  have hbit := packBit_getLsbD d s (j := 7 - j) (by omega)
  have hpos : 7 - j = s.extCnt.toNat ↔ j + s.extCnt.toNat = 7 := by omega
  rwa [show 7 - (7 - j) = j by omega, decide_eq_decide.2 hpos] at hbit

/-- Settles O10: the accumulator with the selected bit placed is the new one. -/
theorem extByteHoldsTheBit : Obligations.ExtByteHoldsTheBit := by
  intro s d hf hcnt
  refine ⟨packBit d s, ?_, fun j hj => packBit_getLsbD_low d s hj⟩
  exact (gated_of_not_faulted hf _).trans (congrArg _ (extByteBody_of_lt hcnt d))

/-- The state after the eighth bit of a group: the byte goes to the capture from the emptied packer (R103, R105). -/
theorem extByteBody_completed {s : State} (h : s.extCnt.toNat = 7) (d : Byte) :
    extByteBody d s = { s with
      extAcc := 0, extCnt := 0,
      pktCount := (capture (packBit d s) { s with extAcc := 0, extCnt := 0 }).pktCount,
      payload := (capture (packBit d s) { s with extAcc := 0, extCnt := 0 }).payload,
      rsp := some (okWord (packBit d s)) } := by
  rw [extByteBody_of_eq h, okv_eq, capture_frame]

/-- Settles O11: the completed byte is answered and captured from the emptied packer. -/
theorem extByteCompletesAndCaptures : Obligations.ExtByteCompletesAndCaptures := by
  intro s d hf hcnt hwf
  have hexec : exec (.extByte d) s = .next (extByteBody d s) := gated_of_not_faulted hf _
  refine ⟨packBit d s, _, _, hexec.trans (congrArg _ (extByteBody_completed hcnt d)), fun j hj => ?_,
    capture_pktCount .., capture_wf _ hwf, capture_read _ hwf⟩
  have hzero : j + s.extCnt.toNat = 7 ↔ j = 0 := by omega
  rw [packBit_getLsbD_low d s hj, decide_eq_decide.2 hzero]

/-- The LSB selector is bit 0 (R100). -/
theorem lsb_congr {d e : Byte} (h : d.getLsbD 0 = e.getLsbD 0) : lsb d = lsb e := by
  apply BitVec.eq_of_getLsbD_eq
  intro j hj
  obtain rfl : j = 0 := by omega
  simpa [lsb] using h

/-- Settles O12: EXT_BYTE reads its operand through the LSB selector only. -/
theorem extByteUsesBitZeroOnly : Obligations.ExtByteUsesBitZeroOnly := by
  intro s d e h
  have hpack : packBit d s = packBit e s := by rw [packBit, packBit, lsb_congr h]
  have hbody : extByteBody d s = extByteBody e s := by rw [extByteBody, extByteBody, hpack]
  rw [exec, exec, execExtByte, execExtByte, gated, gated, hbody]

/-- Settles O16: the two branches of the FAULTED gate, and 0x2000 as the command's encoding. -/
theorem extEndDropsThePartialGroup : Obligations.ExtEndDropsThePartialGroup := by
  refine ⟨fun s => ⟨fun hf => gated_of_not_faulted hf _, fun hf => ?_⟩,
    fun w => ⟨⟨fun h => ?_, ?_⟩, fun hlo hhi => ?_⟩⟩
  · exact (gated_of_faulted hf _).trans (congrArg _ (answerFaulted_eq s))
  · exact (decodeThenEncodeGivesTheWord w .extEnd h).symm
  · rintro rfl
    exact encodeThenDecodeGivesTheCommand .extEnd
  · exact (illegalWordsAreTheListedRanges w).2 (by omega)

/-! ### The extractor reads its own registers only (R110) -/

/-- The extractor's registers and the capture buffer agree. -/
structure SameExtractor (s t : State) : Prop where
  extAcc : s.extAcc = t.extAcc
  extCnt : s.extCnt = t.extCnt
  pktCount : s.pktCount = t.pktCount
  payload : s.payload = t.payload

/-- CAPTURE reads the packed bytes' count and the capture buffer only (R104, R110). -/
theorem SameExtractor.capture {s t : State} (h : SameExtractor s t) (p : Byte) :
    SameExtractor (capture p s) (capture p t) := by
  obtain ⟨hacc, hcnt, hpkt, hpay⟩ := h
  rcases Nat.lt_or_ge s.pktCount.toNat 4 with h4 | h4
  · rw [capture_of_header h4, capture_of_header (hpkt ▸ h4)]
    exact ⟨hacc, hcnt, congrArg (· + 1) hpkt, hpay⟩
  rcases Nat.lt_or_ge s.pktCount.toNat 518 with hn | hn
  · rw [capture_of_payload h4 hn, capture_of_payload (hpkt ▸ h4) (hpkt ▸ hn), hpkt, hpay]
    exact ⟨hacc, hcnt, rfl, rfl⟩
  · rw [capture_of_full hn, capture_of_full (hpkt ▸ hn)]
    exact ⟨hacc, hcnt, hpkt, hpay⟩

/-- EXT_BYTE gives equal results from equal extractors (R105, R110). -/
theorem SameExtractor.extByteBody {s t : State} (h : SameExtractor s t) (d : Byte) :
    SameExtractor (extByteBody d s) (extByteBody d t) ∧ (extByteBody d s).rsp = (extByteBody d t).rsp := by
  have hpack : packBit d s = packBit d t := by rw [packBit, packBit, h.extAcc, h.extCnt]
  have hcnt := s.extCnt.isLt
  rcases Nat.lt_or_ge s.extCnt.toNat 7 with h7 | h7
  · rw [extByteBody_of_lt h7, extByteBody_of_lt (h.extCnt ▸ h7), hpack]
    exact ⟨⟨rfl, congrArg (· + 1) h.extCnt, h.pktCount, h.payload⟩, rfl⟩
  · have h7 : s.extCnt.toNat = 7 := by omega
    have hempty : SameExtractor { s with extAcc := 0, extCnt := 0 } { t with extAcc := 0, extCnt := 0 } :=
      ⟨rfl, rfl, h.pktCount, h.payload⟩
    rw [extByteBody_of_eq h7, extByteBody_of_eq (h.extCnt ▸ h7), hpack]
    exact ⟨{ hempty.capture (packBit d t) with }, rfl⟩

/-- EXT_END gives equal results from equal extractors (R106, R110). -/
theorem SameExtractor.extEndBody {s t : State} (h : SameExtractor s t) :
    SameExtractor (extEndBody s) (extEndBody t) ∧ (extEndBody s).rsp = (extEndBody t).rsp :=
  ⟨⟨rfl, rfl, h.pktCount, h.payload⟩, rfl⟩

/-- Outside FAULTED the next state of a gated command is its body's (R226). -/
theorem gated_next_of_not_faulted {body : State → State} {s t : State} (hf : s.engState ≠ .faulted)
    (h : gated body s = .next t) : t = body s :=
  (Host.Outcome.next.inj ((gated_of_not_faulted hf body).symm.trans h)).symm

/-- Outside FAULTED a gated command gives equal results where its body does. -/
theorem gated_sameExtractor {body : State → State} {s s' t t' : State} (hf : s.engState ≠ .faulted)
    (hf' : s'.engState ≠ .faulted) (ht : gated body s = .next t) (ht' : gated body s' = .next t')
    (h : SameExtractor (body s) (body s') ∧ (body s).rsp = (body s').rsp) :
    SameExtractor t t' ∧ t.rsp = t'.rsp := by
  rwa [gated_next_of_not_faulted hf ht, gated_next_of_not_faulted hf' ht']

/-- Settles O17: the gate's answer writes the response only, the bodies write what their frames list, and equal
extractors give equal results. -/
theorem extractorIsIsolatedFromTheEngine : Obligations.ExtractorIsIsolatedFromTheEngine := by
  intro c hc
  refine ⟨fun s t ht => ?_, fun s s' t t' hf hf' hacc hcnt hpkt hpay ht ht' => ?_⟩
  · obtain rfl | ⟨d, rfl⟩ := hc <;> obtain rfl | ⟨-, rfl⟩ := gated_next ht
    exacts [rfl, rfl, rfl, extByteBody_frame d s]
  · have hsame : SameExtractor s s' := ⟨hacc, hcnt, hpkt, hpay⟩
    have hresult : SameExtractor t t' ∧ t.rsp = t'.rsp := by
      obtain rfl | ⟨d, rfl⟩ := hc
      · exact gated_sameExtractor hf hf' ht ht' hsame.extEndBody
      · exact gated_sameExtractor hf hf' ht ht' (hsame.extByteBody d)
    obtain ⟨⟨hacc, hcnt, hpkt, hpay⟩, hrsp⟩ := hresult
    exact ⟨hacc, hcnt, hpkt, hpay, hrsp⟩

/-! ### A run of commands in two parts -/

/-- A command in front of a run, taken apart (R11). -/
theorem runCommands_cons_inv {i : Instr} {is : List Instr} {s u : State} {rs : List Word}
    (h : runCommands (i :: is) s = some (rs, u)) :
    ∃ t r rs', exec i s = .next t ∧ t.rsp = some r ∧ runCommands is t = some (rs', u) ∧ rs = r :: rs' := by
  rw [runCommands] at h
  split at h
  · rename_i t hexec
    split at h
    · rename_i r rs' v hrsp hrun
      cases h
      exact ⟨t, r, rs', hexec, hrsp, hrun, rfl⟩
    · cases h
  · cases h
  · cases h

/-- Two runs, one after the other (R11). -/
theorem runCommands_append {is js : List Instr} {s t u : State} {rs rs' : List Word}
    (his : runCommands is s = some (rs, t)) (hjs : runCommands js t = some (rs', u)) :
    runCommands (is ++ js) s = some (rs ++ rs', u) := by
  induction is generalizing s rs with
  | nil =>
    cases his
    exact hjs
  | cons i is ih =>
    obtain ⟨v, r, qs, hexec, hrsp, hrun, rfl⟩ := runCommands_cons_inv his
    exact runCommands_cons hexec hrsp (ih hrun)

/-! ### The packed byte of a group (R102) -/

/-- The packed byte of the first eight raw bytes, a missing one counting as 0 (R102). -/
def groupByte (raws : List Byte) : Byte :=
  BitVec.ofNat 8 (((raws.getD 0 0).toNat % 2) * 128 + ((raws.getD 1 0).toNat % 2) * 64
    + ((raws.getD 2 0).toNat % 2) * 32 + ((raws.getD 3 0).toNat % 2) * 16 + ((raws.getD 4 0).toNat % 2) * 8
    + ((raws.getD 5 0).toNat % 2) * 4 + ((raws.getD 6 0).toNat % 2) * 2 + (raws.getD 7 0).toNat % 2)

/-- The number of the packed byte (R102). -/
theorem groupByte_toNat (raws : List Byte) :
    (groupByte raws).toNat =
      ((raws.getD 0 0).toNat % 2) * 128 + ((raws.getD 1 0).toNat % 2) * 64 + ((raws.getD 2 0).toNat % 2) * 32
        + ((raws.getD 3 0).toNat % 2) * 16 + ((raws.getD 4 0).toNat % 2) * 8 + ((raws.getD 5 0).toNat % 2) * 4
        + ((raws.getD 6 0).toNat % 2) * 2 + (raws.getD 7 0).toNat % 2 := by
  rw [groupByte, BitVec.toNat_ofNat]
  exact Nat.mod_eq_of_lt (by omega)

/-- Bit 7 − j of the packed byte is the selected bit of raw byte j (R102). -/
theorem groupByte_getLsbD (raws : List Byte) {j : Nat} (hj : j < 8) :
    (groupByte raws).getLsbD (7 - j) = (raws.getD j 0).getLsbD 0 := by
  simp only [BitVec.getLsbD, Nat.testBit_eq_decide_div_mod_eq, groupByte_toNat, decide_eq_decide]
  interval_cases j <;> omega

/-- The raw bytes of a group not longer than eight are the bits of its packed byte. -/
theorem getElem_getLsbD_groupByte (raws : List Byte) (h : raws.length ≤ 8) (k : Nat) (hk : k < raws.length) :
    raws[k].getLsbD 0 = (groupByte raws).getLsbD (7 - (0 + k)) := by
  rw [Nat.zero_add, groupByte_getLsbD raws (by omega), List.getD_eq_getElem _ _ hk]

/-- Eight raw bytes from a group boundary: `ok()` seven times, then the packed byte (R102, R105). -/
theorem runCommands_group {raws : List Byte} {s : State} (hlen : raws.length = 8) (hf : s.engState ≠ .faulted)
    (hb : AtGroupBoundary s) :
    ∃ t, runCommands (raws.map .extByte) s = some (List.replicate 7 0x0000#16 ++ [okWord (groupByte raws)], t) ∧
      t.engState = s.engState ∧ AtGroupBoundary t :=
  (holding_zero _ hb).run raws hf (by decide) (by omega) (getElem_getLsbD_groupByte raws hlen.le)

/-- Settles O13: the run of a whole group answers its packed byte. -/
theorem eightRawBytesPackOneByte : Obligations.EightRawBytesPackOneByte := by
  intro s b0 b1 b2 b3 b4 b5 b6 b7 hf hb
  obtain ⟨t, hrun, -, hbt⟩ := runCommands_group (raws := [b0, b1, b2, b3, b4, b5, b6, b7]) rfl hf hb
  refine ⟨_, t, hrun, hbt, ?_⟩
  rw [groupByte_toNat, Nat.mul_one]
  rfl

/-! ### The source's `extract`, group by group (R109) -/

/-- A list of raw bytes is short of a group, or a group in front of a list. -/
theorem induction_by_groups {motive : List Byte → Prop} (short : ∀ raws, raws.length < 8 → motive raws)
    (group : ∀ g rest, g.length = 8 → motive rest → motive (g ++ rest)) (raws : List Byte) : motive raws := by
  rcases Nat.lt_or_ge raws.length 8 with h | h
  · exact short raws h
  · rw [← List.take_append_drop 8 raws]
    exact group _ _ (List.length_take_of_le h) (induction_by_groups short group (raws.drop 8))
  termination_by raws.length
  decreasing_by rw [List.length_drop]; omega

theorem extract_of_lt {raws : List Byte} (h : raws.length < 8) : extract raws = [] := by
  unfold extract
  split
  · simp only [List.length_cons] at h
    omega
  · rfl

theorem extract_group_append {g : List Byte} (h : g.length = 8) (rest : List Byte) :
    extract (g ++ rest) = groupByte g :: extract rest :=
  match g, h with
  | [_, _, _, _, _, _, _, _], _ => rfl

/-- One packed byte for each eight raw bytes (R109). -/
theorem extract_length (raws : List Byte) : (extract raws).length = raws.length / 8 := by
  induction raws using induction_by_groups with
  | short raws h => rw [extract_of_lt h, Nat.div_eq_of_lt h, List.length_nil]
  | group g rest hg ih =>
    rw [extract_group_append hg, List.length_cons, List.length_append, ih]
    omega

/-- Bit 7 − j of packed byte k is the selected bit of raw byte 8k + j (R109). -/
theorem extract_getLsbD (raws : List Byte) {k j : Nat} (hk : k < raws.length / 8) (hj : j < 8) :
    ((extract raws).getD k 0).getLsbD (7 - j) = (raws.getD (8 * k + j) 0).getLsbD 0 := by
  induction raws using induction_by_groups generalizing k with
  | short raws h => omega
  | group g rest hg ih =>
    rw [extract_group_append hg]
    cases k with
    | zero =>
      rw [List.getD_cons_zero, groupByte_getLsbD g hj, Nat.mul_zero, Nat.zero_add,
        List.getD_append _ _ _ _ (by omega)]
    | succ k =>
      rw [List.length_append] at hk
      rw [List.getD_cons_succ, ih (by omega), List.getD_append_right _ _ _ _ (by omega)]
      congr 2
      omega

/-! ### The extractor on a list of raw bytes (R109) -/

/-- The raw bytes of a group that they leave incomplete are held, each answered with `ok()` (R101, R105). -/
theorem Holding.hold {p : Byte} (raws : List Byte) {n : Nat} {s : State} (hf : s.engState ≠ .faulted)
    (h : Holding p n s) (hlen : n + raws.length < 8)
    (hraws : ∀ k (hk : k < raws.length), raws[k].getLsbD 0 = p.getLsbD (7 - (n + k))) :
    ∃ t, runCommands (raws.map .extByte) s = some (List.replicate raws.length 0x0000#16, t) ∧
      Holding p (n + raws.length) t := by
  induction raws generalizing n s with
  | nil => exact ⟨s, rfl, h⟩
  | cons d raws ih =>
    rw [List.length_cons] at hlen
    have hexec : exec (.extByte d) s = .next (extByteBody d s) := gated_of_not_faulted hf _
    obtain ⟨hrsp, hnext⟩ := h.next (by omega) (hraws 0 (by simp))
    have hrest (k : Nat) (hk : k < raws.length) : raws[k].getLsbD 0 = p.getLsbD (7 - (n + 1 + k)) := by
      simpa [Nat.add_assoc, Nat.add_comm 1 k] using hraws (k + 1) (Nat.succ_lt_succ hk)
    obtain ⟨t, hrun, ht⟩ := ih (by simpa using hf) hnext (by omega) hrest
    refine ⟨t, runCommands_cons hexec hrsp hrun, ?_⟩
    rwa [List.length_cons, Nat.add_comm raws.length 1, ← Nat.add_assoc]

theorem resultBytes_append (rs rs' : List Word) : resultBytes (rs ++ rs') = resultBytes rs ++ resultBytes rs' :=
  List.filterMap_append

/-- `ok()` carries no result (R10). -/
theorem resultBytes_replicate_ok (n : Nat) : resultBytes (List.replicate n 0x0000#16) = [] := by
  simp [resultBytes]

/-- `ok(p)` carries p (R10). -/
theorem resultBytes_okWord (p : Byte) : resultBytes [okWord p] = [p] := by
  have hdv := responseWord_dv false true p
  have hdata := responseWord_data false true p
  rw [responseWord_ok] at hdv hdata
  rw [← BitVec.setWidth_eq_extractLsb' (by decide)] at hdata
  simp [resultBytes, hdv, hdata]

/-- The raw bytes after the last complete group. -/
def tailGroup (raws : List Byte) : List Byte := raws.drop (8 * (raws.length / 8))

theorem tailGroup_of_lt {raws : List Byte} (h : raws.length < 8) : tailGroup raws = raws := by
  rw [tailGroup, Nat.div_eq_of_lt h, Nat.mul_zero, List.drop_zero]

theorem tailGroup_group_append {g : List Byte} (h : g.length = 8) (rest : List Byte) :
    tailGroup (g ++ rest) = tailGroup rest := by
  have hlen : 8 * ((g ++ rest).length / 8) = g.length + 8 * (rest.length / 8) := by
    rw [List.length_append]
    omega
  rw [tailGroup, hlen, List.drop_length_add_append, tailGroup]

/-- From a group boundary EXT_BYTE on a list of raw bytes answers `extract` of the list and holds the bits of the last,
incomplete group (R109). -/
theorem runCommands_extract (raws : List Byte) {s : State} (hf : s.engState ≠ .faulted) (hb : AtGroupBoundary s) :
    ∃ rs t, runCommands (raws.map .extByte) s = some (rs, t) ∧ resultBytes rs = extract raws ∧
      Holding (groupByte (tailGroup raws)) (raws.length % 8) t := by
  induction raws using induction_by_groups generalizing s with
  | short raws h =>
    obtain ⟨t, hrun, ht⟩ := (holding_zero _ hb).hold raws hf (by omega) (getElem_getLsbD_groupByte raws h.le)
    refine ⟨_, t, hrun, (resultBytes_replicate_ok _).trans (extract_of_lt h).symm, ?_⟩
    rw [Nat.zero_add] at ht
    rwa [tailGroup_of_lt h, Nat.mod_eq_of_lt h]
  | group g rest hg ih =>
    obtain ⟨t, hrun, heng, hbt⟩ := runCommands_group hg hf hb
    obtain ⟨rs, u, hrun', hres, hu⟩ := ih (heng ▸ hf) hbt
    refine ⟨_, u, List.map_append ▸ runCommands_append hrun hrun', ?_, ?_⟩
    · rw [resultBytes_append, resultBytes_append, resultBytes_replicate_ok, resultBytes_okWord, hres,
        extract_group_append hg]
      rfl
    · rwa [tailGroup_group_append hg, List.length_append, hg, Nat.add_mod_left]

/-- Settles O14: the run answers `extract` of the raw bytes, and the held bits are those of the last group. -/
theorem streamedExtractorIsTheSourceFunction : Obligations.StreamedExtractorIsTheSourceFunction := by
  intro raws s hf hb
  obtain ⟨rs, t, hrun, hres, ht⟩ := runCommands_extract raws hf hb
  refine ⟨rs, t, hrun, hres, extract_length raws, fun k hk j hj => extract_getLsbD raws hk hj, ht.extCnt, ?_⟩
  intro j hj
  have hj8 : j < 8 := by omega
  rw [ht.extAcc j hj8, decide_eq_true hj, Bool.true_and, groupByte_getLsbD _ hj8, tailGroup,
    List.getD_eq_getElem?_getD, List.getElem?_drop, ← List.getD_eq_getElem?_getD]

end Sys2Proof.Machine

namespace Sys2Proof.Machine

/-! ### LOAD by its cases (R130, R131, R134) -/

theorem exec_load_of_not_faulted {s : State} (hf : s.engState ≠ .faulted) : exec .load s = .next (loadBody s) :=
  gated_of_not_faulted hf loadBody

/-- LOAD of a capture that is not full (R131). -/
theorem loadBody_of_short {s : State} (h : s.pktCount.toNat < 518) : loadBody s = raisePlain .malformed s := if_pos h

/-- LOAD of a full capture with a start step that fails (R134). -/
theorem loadBody_of_missed {s t : State} {m : Miss} (hfull : 518 ≤ s.pktCount.toNat)
    (h : startSteps [.r1, .r2, .r3] (sliceFields s) = (t, some m)) : loadBody s = raiseMiss m t := by
  simp only [loadBody, Nat.not_lt.2 hfull, if_false, h]

/-- LOAD of a full capture enters READY or raises CONSISTENCY, by its start steps (R133, R134). -/
theorem loadBody_cases {s : State} (hfull : 518 ≤ s.pktCount.toNat) :
    (∃ t, startSteps [.r1, .r2, .r3] (sliceFields s) = (t, none) ∧
        loadBody s = ok { t with outCount := 0, engState := .ready }) ∨
      ∃ t m, startSteps [.r1, .r2, .r3] (sliceFields s) = (t, some m) ∧ loadBody s = raiseMiss m t := by
  rcases hsteps : startSteps [.r1, .r2, .r3] (sliceFields s) with ⟨t, _ | m⟩
  · exact .inl ⟨t, rfl, by simp only [loadBody, Nat.not_lt.2 hfull, if_false, hsteps]⟩
  · exact .inr ⟨t, m, rfl, loadBody_of_missed hfull hsteps⟩

/-- Settles O18: a short capture is the first branch of LOAD, and a full one answers 0x0000 or 0x8002. -/
theorem loadOfAShortCaptureRaisesMalformed : Obligations.LoadOfAShortCaptureRaisesMalformed := by
  intro s hf
  refine ⟨fun hshort => ?_, fun hfull => ⟨_, exec_load_of_not_faulted hf, ?_⟩⟩
  · rw [exec_load_of_not_faulted hf, loadBody_of_short hshort, raisePlain_eq]
    rfl
  · obtain ⟨t, -, h⟩ | ⟨t, m, -, h⟩ := loadBody_cases hfull
    · rw [h, ok_eq]
      simp
    · rw [h, raiseMiss_eq]
      simp

/-! ### The first start symbol that is absent (R134) -/

/-- A start symbol that the capture buffer's field lacks is absent from the copied field (R54, R134). -/
theorem absent_payloadSlice {a b : Nat} (h : a + 94 ≤ 514) {s : State} (hm : StartMissing s a b) :
    Absent (payloadSlice 94 a h s) (s.payload.read b) := by
  simp only [Absent, Fin.getElem_fin, payloadSlice_getElem]
  exact hm

/-- A start symbol is absent from its field, or has a first place in it. -/
theorem startMissing_or_startsAt (s : State) (a b : Nat) : StartMissing s a b ∨ ∃ i, StartsAt s a b i := by
  by_cases h : StartMissing s a b
  · exact .inl h
  · obtain ⟨j, hj⟩ := not_forall_not.1 h
    obtain ⟨i, hi, hleast⟩ :=
      wellFounded_lt.has_min {i : Fin 94 | s.payload.read (a + i) = s.payload.read b} ⟨j, hj⟩
    exact .inr ⟨i, hi, fun k hk he => hleast k he hk⟩

theorem StartsAt.not_startMissing {s : State} {a b : Nat} {i : Fin 94} (h : StartsAt s a b i) : ¬StartMissing s a b :=
  fun hm => hm i h.1

/-- The start steps where the first start symbol to be absent is rotor 1's (R134). -/
theorem startSteps_of_absent_r1 {s : State} (h1 : Absent s.scr1 s.start1) :
    startSteps [.r1, .r2, .r3] s = (s, some ⟨.start .r1, s.start1⟩) := by
  simp only [startSteps, scr_r1, start_r1, (stepTo_eq_none _ _).2 h1]

/-- The start steps where the first start symbol to be absent is rotor 2's (R133, R134). -/
theorem startSteps_of_absent_r2 {s : State} {i1 : Fin 94} (h1 : FirstAt s.scr1 s.start1 i1)
    (h2 : Absent s.scr2 s.start2) :
    startSteps [.r1, .r2, .r3] s = (s.setScr .r1 (rotl s.scr1 i1), some ⟨.start .r2, s.start2⟩) := by
  simp only [startSteps, scr_r1, scr_r2, start_r1, start_r2, setScr_r1, stepTo_of_firstAt h1, (stepTo_eq_none _ _).2 h2]

/-- The start steps where the first start symbol to be absent is rotor 3's (R133, R134). -/
theorem startSteps_of_absent_r3 {s : State} {i1 i2 : Fin 94} (h1 : FirstAt s.scr1 s.start1 i1)
    (h2 : FirstAt s.scr2 s.start2 i2) (h3 : Absent s.scr3 s.start3) :
    startSteps [.r1, .r2, .r3] s =
      ((s.setScr .r1 (rotl s.scr1 i1)).setScr .r2 (rotl s.scr2 i2), some ⟨.start .r3, s.start3⟩) := by
  simp only [startSteps, scr_r1, scr_r2, scr_r3, start_r1, start_r2, start_r3, setScr_r1, setScr_r2,
    stepTo_of_firstAt h1, stepTo_of_firstAt h2, (stepTo_eq_none _ _).2 h3]

/-- LOAD where the first start symbol to be absent is rotor 1's: the wheels are the copied fields (R134, R136). -/
theorem loadBody_of_startMissing_r1 {s : State} (hfull : 518 ≤ s.pktCount.toNat) (h1 : StartMissing s 188 472) :
    loadBody s = raiseMiss ⟨.start .r1, s.payload.read 472⟩ (sliceFields s) :=
  loadBody_of_missed hfull (startSteps_of_absent_r1 (s := sliceFields s) (absent_payloadSlice (by decide) h1))

/-- LOAD where the first start symbol to be absent is rotor 2's: only wheel 1 is stepped (R134, R136). -/
theorem loadBody_of_startMissing_r2 {s : State} {i1 : Fin 94} (hfull : 518 ≤ s.pktCount.toNat)
    (h1 : StartsAt s 188 472 i1) (h2 : StartMissing s 282 473) :
    loadBody s = raiseMiss ⟨.start .r2, s.payload.read 473⟩
      ((sliceFields s).setScr .r1 (rotl (sliceFields s).scr1 i1)) :=
  loadBody_of_missed hfull (startSteps_of_absent_r2 (s := sliceFields s) (firstAt_payloadSlice (by decide) h1)
    (absent_payloadSlice (by decide) h2))

/-- LOAD where the first start symbol to be absent is rotor 3's: wheels 1 and 2 are stepped (R134, R136). -/
theorem loadBody_of_startMissing_r3 {s : State} {i1 i2 : Fin 94} (hfull : 518 ≤ s.pktCount.toNat)
    (h1 : StartsAt s 188 472 i1) (h2 : StartsAt s 282 473 i2) (h3 : StartMissing s 376 474) :
    loadBody s = raiseMiss ⟨.start .r3, s.payload.read 474⟩
      (((sliceFields s).setScr .r1 (rotl (sliceFields s).scr1 i1)).setScr .r2 (rotl (sliceFields s).scr2 i2)) :=
  loadBody_of_missed hfull (startSteps_of_absent_r3 (s := sliceFields s) (firstAt_payloadSlice (by decide) h1)
    (firstAt_payloadSlice (by decide) h2) (absent_payloadSlice (by decide) h3))

theorem SameTracked.setScr {s t : State} (h : SameTracked s t) (r : Rotor) (w : Wheel) :
    SameTracked s (t.setScr r w) := by cases r <;> exact { h with }

/-- CONSISTENCY from a state in which only engine registers were written (R134, R136). -/
theorem raiseMiss_of_sameTracked {s t : State} (h : SameTracked s t) (m : Miss) :
    (raiseMiss m t).errCode = .consistency ∧ (raiseMiss m t).engState = .faulted ∧
      (raiseMiss m t).rsp = some 0x8002 ∧ (raiseMiss m t).outCount = s.outCount ∧
      (raiseMiss m t).extAcc = s.extAcc ∧ (raiseMiss m t).extCnt = s.extCnt ∧
      (raiseMiss m t).pktCount = s.pktCount ∧ (raiseMiss m t).payload = s.payload :=
  ⟨rfl, rfl, rfl, h.outCount.symm, h.extAcc.symm, h.extCnt.symm, h.pktCount.symm, h.payload.symm⟩

/-- Settles O20: each rotor's start symbol is absent or occurs, in the order 1, 2, 3. -/
theorem loadWithoutAStartSymbolRaisesConsistency : Obligations.LoadWithoutAStartSymbolRaisesConsistency := by
  intro s hf hfull
  refine ⟨_, exec_load_of_not_faulted hf, ?_⟩
  have hslice := sliceFields_sameTracked s
  have hscr2 (j : Fin 94) : (sliceFields s).scr2[j] = s.payload.read (282 + j) :=
    payloadSlice_getElem (by decide) s j.isLt
  have hscr3 (j : Fin 94) : (sliceFields s).scr3[j] = s.payload.read (376 + j) :=
    payloadSlice_getElem (by decide) s j.isLt
  obtain h1 | ⟨i1, h1⟩ := startMissing_or_startsAt s 188 472
  · rw [loadBody_of_startMissing_r1 hfull h1]
    exact ⟨fun _ => ⟨rfl, rfl, hscr2, hscr3⟩, fun hn => absurd h1 hn, fun hn => absurd h1 hn,
      fun _ => raiseMiss_of_sameTracked hslice _⟩
  have hn1 : ¬StartMissing s 188 472 := StartsAt.not_startMissing h1
  obtain h2 | ⟨i2, h2⟩ := startMissing_or_startsAt s 282 473
  · rw [loadBody_of_startMissing_r2 hfull h1 h2]
    exact ⟨fun h => absurd h hn1, fun _ _ => ⟨rfl, rfl, hscr3⟩, fun _ hn => absurd h2 hn,
      fun _ => raiseMiss_of_sameTracked (hslice.setScr ..) _⟩
  have hn2 : ¬StartMissing s 282 473 := StartsAt.not_startMissing h2
  obtain h3 | ⟨i3, h3⟩ := startMissing_or_startsAt s 376 474
  · rw [loadBody_of_startMissing_r3 hfull h1 h2 h3]
    exact ⟨fun h => absurd h hn1, fun _ h => absurd h hn2, fun _ _ _ => ⟨rfl, rfl⟩,
      fun _ => raiseMiss_of_sameTracked ((hslice.setScr ..).setScr ..) _⟩
  · have hn3 : ¬StartMissing s 376 474 := StartsAt.not_startMissing h3
    exact ⟨fun h => absurd h hn1, fun _ h => absurd h hn2, fun _ _ h => absurd h hn3,
      fun h => absurd h (not_or.2 ⟨hn1, not_or.2 ⟨hn2, hn3⟩⟩)⟩

/-! ### A full capture is kept (R104, R135) -/

/-- The packed bytes' count and the capture buffer stay as they were. -/
abbrev CaptureKept (s t : State) : Prop := t.pktCount = s.pktCount ∧ t.payload = s.payload

/-- With a full capture EXT_BYTE moves the packer only (R104). -/
theorem extByteBody_captureKept {s : State} (hfull : 518 ≤ s.pktCount.toNat) (d : Byte) :
    CaptureKept s (extByteBody d s) := by
  unfold extByteBody
  split
  · rw [capture_of_full (s := { s with extAcc := 0, extCnt := 0 }) hfull]
    exact ⟨rfl, rfl⟩
  · exact ⟨rfl, rfl⟩

/-- LOAD of a full capture does not write it, whether LOAD succeeds or raises (R130). -/
theorem loadBody_captureKept {s : State} (hfull : 518 ≤ s.pktCount.toNat) : CaptureKept s (loadBody s) := by
  obtain ⟨t, hsteps, h⟩ | ⟨t, m, hsteps, h⟩ := loadBody_cases hfull <;>
    have ht := loadSteps_sameTracked hsteps <;>
    exact h ▸ ⟨ht.pktCount.symm, ht.payload.symm⟩

theorem OrdinaryEffect.captureKept {s t : State} (h : OrdinaryEffect s t) (hfull : 518 ≤ s.pktCount.toNat) :
    CaptureKept s t := by
  cases h with
  | answered err dv v => exact ⟨rfl, rfl⟩
  | raised e _ _ => exact ⟨rfl, rfl⟩
  | extByte d => exact extByteBody_captureKept hfull d
  | extEnd => exact ⟨rfl, rfl⟩
  | cipher d _ => rw [cipherBody_frame]; exact ⟨rfl, rfl⟩
  | decodeMsg _ => rw [decodeMsgBody_frame]; exact ⟨rfl, rfl⟩

/-- No command but SOFT_RESET changes a full capture (R104, R135). -/
theorem exec_captureKept {i : Instr} {s t : State} (hreset : i ≠ .softReset) (hfull : 518 ≤ s.pktCount.toNat)
    (h : exec i s = .next t) : CaptureKept s t := by
  by_cases hload : i = .load
  · subst hload
    obtain rfl | ⟨-, rfl⟩ := gated_next h
    exacts [⟨rfl, rfl⟩, loadBody_captureKept hfull]
  · exact (exec_ordinary hload hreset h).captureKept hfull

/-- A run of commands without SOFT_RESET keeps a full capture (R104, R135). -/
theorem runCommands_captureKept {is : List Instr} {s u : State} {rs : List Word} (hfull : 518 ≤ s.pktCount.toNat)
    (hreset : .softReset ∉ is) (h : runCommands is s = some (rs, u)) : CaptureKept s u := by
  induction is generalizing s rs with
  | nil =>
    cases h
    exact ⟨rfl, rfl⟩
  | cons i is ih =>
    obtain ⟨hi, his⟩ := not_or.1 (mt List.mem_cons.2 hreset)
    obtain ⟨t, r, rs', hexec, -, hrun, -⟩ := runCommands_cons_inv h
    obtain ⟨hpkt, hpay⟩ := exec_captureKept (Ne.symm hi) hfull hexec
    obtain ⟨hpkt', hpay'⟩ := ih (hpkt ▸ hfull) his hrun
    exact ⟨hpkt'.trans hpkt, hpay'.trans hpay⟩

/-! ### LOAD is a function of the capture (R135) -/

theorem payloadSlice_congr {n a : Nat} {h : a + n ≤ 514} {s u : State} (hpay : u.payload = s.payload) :
    payloadSlice n a h u = payloadSlice n a h s := by simp only [payloadSlice, memRead, hpay]

/-- From equal captures whose start symbols occur, LOAD builds equal engines (R133, R135). -/
theorem loadBody_sameEngine {s u : State} {i1 i2 i3 : Fin 94} (hfull : 518 ≤ s.pktCount.toNat)
    (h : CaptureKept s u) (h1 : StartsAt s 188 472 i1) (h2 : StartsAt s 282 473 i2) (h3 : StartsAt s 376 474 i3) :
    (loadBody s).rsp = (loadBody u).rsp ∧ SameEngine (loadBody s) (loadBody u) := by
  obtain ⟨hpkt, hpay⟩ := h
  rw [loadBody_of_startsAt hfull h1 h2 h3, loadBody_of_startsAt (s := u) (hpkt ▸ hfull)
    (by simpa only [StartsAt, hpay] using h1) (by simpa only [StartsAt, hpay] using h2)
    (by simpa only [StartsAt, hpay] using h3)]
  refine ⟨rfl, ?_⟩
  constructor <;> simp only [sliceFields_eq, payloadSlice_congr hpay, hpay]

/-- Settles O21: the run keeps the capture; where its start symbols occur LOAD builds the same engine, and where one is
absent it raises the same error. -/
theorem reloadRebuildsTheSameEngine : Obligations.ReloadRebuildsTheSameEngine := by
  intro is s u rs hf hfull hreset hrun hfu
  have hkept := runCommands_captureKept hfull hreset hrun
  obtain ⟨s', hs', -, -, -, hmiss⟩ := loadWithoutAStartSymbolRaisesConsistency s hf hfull
  obtain ⟨u', hu', -, -, -, hmiss'⟩ := loadWithoutAStartSymbolRaisesConsistency u hfu (hkept.1 ▸ hfull)
  refine ⟨s', u', hs', hu', ?_⟩
  by_cases hm : StartMissing s 188 472 ∨ StartMissing s 282 473 ∨ StartMissing s 376 474
  · obtain ⟨-, heng, hrsp, -⟩ := hmiss hm
    obtain ⟨-, heng', hrsp', -⟩ := hmiss' (by simpa only [StartMissing, hkept.2] using hm)
    exact ⟨hrsp.trans hrsp'.symm, heng.trans heng'.symm, fun hready => by simp [heng] at hready⟩
  · simp only [not_or] at hm
    obtain ⟨hn1, hn2, hn3⟩ := hm
    obtain ⟨i1, h1⟩ := (startMissing_or_startsAt s 188 472).resolve_left hn1
    obtain ⟨i2, h2⟩ := (startMissing_or_startsAt s 282 473).resolve_left hn2
    obtain ⟨i3, h3⟩ := (startMissing_or_startsAt s 376 474).resolve_left hn3
    obtain rfl := Host.Outcome.next.inj ((exec_load_of_not_faulted hf).symm.trans hs')
    obtain rfl := Host.Outcome.next.inj ((exec_load_of_not_faulted hfu).symm.trans hu')
    obtain ⟨hrsp, hsame⟩ := loadBody_sameEngine hfull hkept h1 h2 h3
    exact ⟨hrsp, hsame.engState, fun _ => hsame⟩

end Sys2Proof.Machine

namespace Sys2Proof.Machine

/-! ### The default step (R152, R153, R154) -/

/-- A step puts the wheel's last symbol at entry 0 (R152). -/
theorem StepsTo.getElem_zero {w v : Wheel} (h : StepsTo w v) : v[0] = w[93] := by
  obtain ⟨m, ⟨hm, -⟩, hr⟩ := h
  have h0 : v[0] = w[(0 + m.val) % 94]'(Nat.mod_lt _ (by decide)) := hr 0
  simp only [Nat.zero_add, Nat.mod_eq_of_lt m.isLt] at h0
  exact h0.trans hm

/-- The model's step puts the wheel's last symbol at entry 0 (R152). -/
theorem stepDefault_getElem_zero (w : Wheel) : (stepDefault w)[0] = w[93] :=
  StepsTo.getElem_zero ((stepsTo_iff w _).2 rfl)

/-- A rotation by 0 moves nothing (R8). -/
theorem rotl_zero (w : Wheel) : rotl w 0 = w :=
  Vector.ext fun j hj => by simp only [rotl_getElem w 0 j hj, Nat.add_zero, Nat.mod_eq_of_lt hj]

/-- Settles O22: the model's step is the one `StepsTo` names. -/
theorem defaultStepGoesToTheLastEntry : Obligations.DefaultStepGoesToTheLastEntry :=
  fun w => ⟨(stepsTo_iff w _).2 rfl, stepDefault_getElem_zero w⟩

/-- Settles O23: the least index of the last symbol is 93, and a rotation left by 93 is one to the right by 1. -/
theorem stepWithoutRepeatIsARightRotation : Obligations.StepWithoutRepeatIsARightRotation := by
  intro w hw
  have hfirst : FirstAt w w[93] 93 := ⟨rfl, fun j hj => hw j hj⟩
  refine ⟨stepDefault_getElem_zero w, fun j hj => ?_⟩
  have hindex : (j + 1 + 93) % 94 = j := by omega
  have hstep : stepDefault w = rotl w 93 := stepDefault_eq hfirst
  simp only [hstep, rotl_getElem w 93 (j + 1) (by omega), hindex]

/-- Settles O24: the step is the rotation left by the least index. -/
theorem stepWithARepeatRotatesToTheFirstCopy : Obligations.StepWithARepeatRotatesToTheFirstCopy := by
  intro w m _ hfirst
  rw [stepDefault_eq hfirst]
  exact ⟨rotl_Rotated w m, fun hm => hm ▸ rotl_zero w⟩

/-! ### Lookups on wheels of distinct entries (R155, R156, R157) -/

/-- A symbol of the wheel has a least index. -/
theorem exists_firstAt {w : Wheel} {x : Symbol} (h : x ∈ w.toList) : ∃ i, FirstAt w x i := by
  obtain ⟨j, hj, rfl⟩ := Vector.mem_iff_getElem.1 (Vector.mem_toList_iff.1 h)
  exact FirstAt_of_getElem w ⟨j, hj⟩

/-- On a wheel without a repeat every entry stands at its least index. -/
theorem firstAt_of_nodup {w : Wheel} (h : w.toList.Nodup) (i : Fin 94) : FirstAt w w[i] i := by
  refine ⟨rfl, fun j hj e => hj.ne (Fin.ext ?_)⟩
  exact (h.getElem_inj_iff (hi := by simp) (hj := by simp)).1 (by simpa using e)

/-- A wheel's lookup gives one symbol only. -/
theorem Maps_unique {w v : Wheel} {x y z : Symbol} (hy : Maps w v x y) (hz : Maps w v x z) : y = z := by
  obtain ⟨i, hi, rfl⟩ := hy
  obtain ⟨j, hj, rfl⟩ := hz
  rw [FirstAt_unique hi hj]

/-- A symbol of the first wheel maps to a symbol of the second. -/
theorem exists_maps {w : Wheel} {x : Symbol} (h : x ∈ w.toList) (v : Wheel) : ∃ y ∈ v.toList, Maps w v x y := by
  obtain ⟨i, hi⟩ := exists_firstAt h
  exact ⟨v[i], by simp, i, hi, rfl⟩

/-- Looking up and reading back are converse where the second wheel has no repeat (R165). -/
theorem Maps_symm {w v : Wheel} {x y : Symbol} (hv : v.toList.Nodup) (h : Maps w v x y) : Maps v w y x := by
  obtain ⟨i, ⟨hx, -⟩, rfl⟩ := h
  exact ⟨i, firstAt_of_nodup hv i, hx.symm⟩

/-- A symbol of the reflector reflects to a symbol of it. -/
theorem exists_reflects {w : Wheel} {x : Symbol} (h : x ∈ w.toList) : ∃ y ∈ w.toList, Reflects w x y := by
  obtain ⟨i, hi⟩ := exists_firstAt h
  obtain ⟨heven, hodd⟩ := mate_spec i
  exact ⟨w[mate i], by simp, i, mate i, hi, rfl, heven, hodd⟩

/-- Reflection goes both ways where the reflector has no repeat (R166). -/
theorem Reflects_symm {w : Wheel} {x y : Symbol} (hw : w.toList.Nodup) (h : Reflects w x y) : Reflects w y x := by
  obtain ⟨i, j, ⟨hx, -⟩, rfl, heven, hodd⟩ := h
  exact ⟨j, i, firstAt_of_nodup hw j, hx.symm, by omega, by omega⟩

/-- No symbol reflects to itself where the reflector has no repeat (R157). -/
theorem Reflects_ne {w : Wheel} {x y : Symbol} (hw : w.toList.Nodup) (h : Reflects w x y) : x ≠ y := by
  rintro rfl
  obtain ⟨i, j, hi, hj, heven, hodd⟩ := h
  have hij : i = j := FirstAt_unique hi (hj ▸ firstAt_of_nodup hw j)
  omega

/-- Settles O25: the outbound lookup answers a symbol, and the inbound lookup is its converse. -/
theorem oneRotorRoundTrip : Obligations.OneRotorRoundTrip := by
  intro s r x hstat hscr hx
  obtain ⟨y, -, hy⟩ := exists_maps hx (s.scr r)
  exact ⟨y, outbound_eq_ok.2 hy, inbound_eq_ok.2 (Maps_symm (hscr.nodup_iff.2 hstat) hy)⟩

/-- Settles O26: `x` reflects to a symbol, which reflects back. -/
theorem reflectionIsAnInvolution : Obligations.ReflectionIsAnInvolution := by
  intro s x hrefl hx
  obtain ⟨y, -, hy⟩ := exists_reflects hx
  exact ⟨y, reflect_eq_ok.2 hy, reflect_eq_ok.2 (Reflects_symm hrefl hy)⟩

/-! ### Commands in IDLE and in READY (R221, R226) -/

/-- A command that needs READY, in IDLE (R221). -/
theorem gated_whenReady_of_idle {s : State} (h : s.engState = .idle) (body : State → State) :
    gated (whenReady body) s = .next (Raised s .notReady 0x8004) := by
  rw [gated_of_not_faulted (by simp [h]), whenReady_of_idle h, raisePlain_eq]
  rfl

/-- A command that needs READY, in READY (R226). -/
theorem gated_whenReady_of_ready {s : State} (h : s.engState = .ready) (body : State → State) :
    gated (whenReady body) s = .next (body s) := by
  rw [gated_of_not_faulted (by simp [h]), whenReady_of_ready h]

/-- Settles O35: each of the commands passes the FAULTED gate and then the NOT_READY check. -/
theorem engineCommandsInIdleRaiseNotReady : Obligations.EngineCommandsInIdleRaiseNotReady := by
  intro s b h
  simp only [List.forall_mem_cons]
  have hidle := gated_whenReady_of_idle h
  exact ⟨hidle _, hidle _, hidle _, hidle _, hidle _, hidle _, hidle _, hidle _, hidle _, hidle _, hidle _,
    List.forall_mem_nil _⟩

theorem exec_cipher_of_ready {s : State} (h : s.engState = .ready) (d : Symbol) :
    exec (.cipher d) s = .next (cipherBody d s) := gated_whenReady_of_ready h _

theorem exec_decodeMsg_of_ready {s : State} (h : s.engState = .ready) :
    exec .decodeMsg s = .next (decodeMsgBody s) := gated_whenReady_of_ready h _

/-! ### One CIPHER (R162) -/

/-- CIPHER in READY whose seven lookups answer (R161). -/
theorem exec_cipher_of_ok {s : State} {d y : Symbol} (hr : s.engState = .ready)
    (h : substitute (stepRotors s) d = .ok y) :
    exec (.cipher d) s = .next { stepRotors s with rsp := some (okWord y) } := by
  simp only [exec_cipher_of_ready hr, cipherBody, h, okv_eq]

/-- CIPHER in READY with a lookup that fails (R150). -/
theorem exec_cipher_of_error {s : State} {d : Symbol} {m : Miss} (hr : s.engState = .ready)
    (h : substitute (stepRotors s) d = .error m) :
    exec (.cipher d) s = .next (raiseMiss m (stepRotors s)) := by
  simp only [exec_cipher_of_ready hr, cipherBody, h]

/-- Settles O28: the wheels are those of the stepping, and the seven lookups on them answer `y`. -/
theorem cipherAnswersTheSubstitutedSymbol : Obligations.CipherAnswersTheSubstitutedSymbol := by
  intro s d y w1 w2 w3 hr hstepped hyields
  have hstep : stepRotors s = { s with scr1 := w1, scr2 := w2, scr3 := w3 } := (stepped_iff s w1 w2 w3).1 hstepped
  have hsub : substitute (stepRotors s) d = .ok y := by rwa [hstep, substitute_eq_ok]
  rw [exec_cipher_of_ok hr hsub, hstep]

/-- Settles O29: the wheels are those of the stepping, and the seven lookups on them fail at `site` with `x`. -/
theorem cipherLookupFailureRaisesConsistency : Obligations.CipherLookupFailureRaisesConsistency := by
  intro s d x w1 w2 w3 site hr hstepped hmisses
  have hstep : stepRotors s = { s with scr1 := w1, scr2 := w2, scr3 := w3 } := (stepped_iff s w1 w2 w3).1 hstepped
  have hsub : substitute (stepRotors s) d = .error ⟨site, x⟩ := by rwa [hstep, substitute_eq_error]
  rw [exec_cipher_of_error hr hsub, raiseMiss_eq, hstep]

/-! ### The seven lookups on valid wheels (R167) -/

/-- The alphabet has no repeat (R6). -/
theorem alphabet_nodup : Config.alphabet.Nodup := by
  refine List.Nodup.map_on (fun i hi j hj e => ?_) (List.nodup_range' (s := 33) (n := 94))
  rw [List.mem_range'_1] at hi hj
  have hval := congrArg BitVec.toNat e
  rwa [BitVec.toNat_ofNat, BitVec.toNat_ofNat, Nat.mod_eq_of_lt (by omega), Nat.mod_eq_of_lt (by omega)] at hval

theorem IsAlphabetWheel.nodup {w : Wheel} (h : IsAlphabetWheel w) : w.toList.Nodup := h.nodup_iff.2 alphabet_nodup

/-- Two wheels of the alphabet map it into itself. -/
theorem IsAlphabetWheel.exists_maps {w v : Wheel} {x : Symbol} (hw : IsAlphabetWheel w) (hv : IsAlphabetWheel v)
    (hx : x ∈ Config.alphabet) : ∃ y ∈ Config.alphabet, Maps w v x y := by
  obtain ⟨y, hy, hm⟩ := Machine.exists_maps (hw.mem_iff.2 hx) v
  exact ⟨y, hv.mem_iff.1 hy, hm⟩

/-- A reflector of the alphabet reflects it into itself. -/
theorem IsAlphabetWheel.exists_reflects {w : Wheel} {x : Symbol} (hw : IsAlphabetWheel w)
    (hx : x ∈ Config.alphabet) : ∃ y ∈ Config.alphabet, Reflects w x y := by
  obtain ⟨y, hy, hm⟩ := Machine.exists_reflects (hw.mem_iff.2 hx)
  exact ⟨y, hw.mem_iff.1 hy, hm⟩

/-- With valid wheels no lookup fails on the alphabet, and the answer is in it (R150, R167). -/
theorem ValidWheels.exists_yields {s : State} (h : ValidWheels s) {x : Symbol} (hx : x ∈ Config.alphabet) :
    ∃ y ∈ Config.alphabet, Yields s.stat s.refl s.scr1 s.scr2 s.scr3 x y := by
  obtain ⟨hstat, hrefl, h1, h2, h3⟩ := h
  obtain ⟨a, ha, hxa⟩ := hstat.exists_maps h1 hx
  obtain ⟨b, hb, hab⟩ := hstat.exists_maps h2 ha
  obtain ⟨c, hc, hbc⟩ := hstat.exists_maps h3 hb
  obtain ⟨d, hd, hcd⟩ := hrefl.exists_reflects hc
  obtain ⟨e, he, hde⟩ := h3.exists_maps hstat hd
  obtain ⟨f, hf, hef⟩ := h2.exists_maps hstat he
  obtain ⟨y, hy, hfy⟩ := h1.exists_maps hstat hf
  exact ⟨y, hy, a, b, c, d, e, f, hxa, hab, hbc, hcd, hde, hef, hfy⟩

/-- With valid wheels the seven lookups taken backwards are the seven lookups themselves: each rotor's codes and the
reflection are converse to themselves (R165, R166, R167). -/
theorem ValidWheels.yields_symm {s : State} (h : ValidWheels s) {x y : Symbol}
    (hxy : Yields s.stat s.refl s.scr1 s.scr2 s.scr3 x y) : Yields s.stat s.refl s.scr1 s.scr2 s.scr3 y x := by
  obtain ⟨hstat, hrefl, h1, h2, h3⟩ := h
  obtain ⟨a, b, c, d, e, f, hxa, hab, hbc, hcd, hde, hef, hfy⟩ := hxy
  exact ⟨f, e, d, c, b, a, Maps_symm hstat.nodup hfy, Maps_symm hstat.nodup hef, Maps_symm hstat.nodup hde,
    Reflects_symm hrefl.nodup hcd, Maps_symm h3.nodup hbc, Maps_symm h2.nodup hab, Maps_symm h1.nodup hxa⟩

/-- With valid wheels no symbol is its own answer: it would reach the reflector and leave it as one symbol (R167). -/
theorem ValidWheels.yields_ne {s : State} (h : ValidWheels s) {x y : Symbol}
    (hxy : Yields s.stat s.refl s.scr1 s.scr2 s.scr3 x y) : y ≠ x := by
  rintro rfl
  obtain ⟨hstat, hrefl, h1, h2, h3⟩ := h
  obtain ⟨a, b, c, d, e, f, hya, hab, hbc, hcd, hde, hef, hfy⟩ := hxy
  obtain rfl := Maps_unique hya (Maps_symm hstat.nodup hfy)
  obtain rfl := Maps_unique hab (Maps_symm hstat.nodup hef)
  obtain rfl := Maps_unique hbc (Maps_symm hstat.nodup hde)
  exact Reflects_ne hrefl.nodup hcd rfl

/-- The stepping keeps valid wheels valid (R42). -/
theorem stepRotors_validWheels {s : State} (h : ValidWheels s) : ValidWheels (stepRotors s) := by
  obtain ⟨hstat, hrefl, h1, h2, h3⟩ := h
  have hkept := stepRotors_wheelContentsKept s
  exact ⟨hkept.stat ▸ hstat, hkept.refl ▸ hrefl, hkept.scr1.trans h1, hkept.scr2.trans h2, hkept.scr3.trans h3⟩

/-- With valid wheels the substitution is an involution on the alphabet without a fixed point (R167). -/
theorem ValidWheels.substitute_reciprocal {s : State} (h : ValidWheels s) {x : Symbol} (hx : x ∈ Config.alphabet) :
    ∃ y ∈ Config.alphabet, y ≠ x ∧ substitute s x = .ok y ∧ substitute s y = .ok x := by
  obtain ⟨y, hy, hxy⟩ := h.exists_yields hx
  exact ⟨y, hy, h.yields_ne hxy, substitute_eq_ok.2 hxy, substitute_eq_ok.2 (h.yields_symm hxy)⟩

/-- Settles O30: both runs step the wheels alike, and on the stepped wheels the substitution is reciprocal. -/
theorem cipherIsReciprocal : Obligations.CipherIsReciprocal := by
  intro s x hr hvalid hx
  obtain ⟨y, hy, hne, hxy, hyx⟩ := (stepRotors_validWheels hvalid).substitute_reciprocal hx
  exact ⟨y, stepRotors s, hy, hne, (stepRotors_engState s).trans hr, exec_cipher_of_ok hr hxy,
    exec_cipher_of_ok hr hyx⟩

/-! ### Iterations in a row (R161, R163) -/

/-- The iterations on the symbols `xs` from `s` answer `ys` and end in `t`: after the last symbol, or at the first one
with a failed lookup, which is then `some` miss. The loop of DECODE_MSG and a run of CIPHERs both follow it
(`Iterates.decodeLoop_eq`, `Iterates.runCommands_cipher`). -/
inductive Iterates : List Symbol → State → List Symbol → State → Option Miss → Prop
  | done (s : State) : Iterates [] s [] s none
  | answered {x y : Symbol} {xs ys : List Symbol} {s t : State} {o : Option Miss} :
      substitute (stepRotors s) x = .ok y → Iterates xs (stepRotors s) ys t o → Iterates (x :: xs) s (y :: ys) t o
  | failed {x : Symbol} {xs : List Symbol} {s : State} {m : Miss} :
      substitute (stepRotors s) x = .error m → Iterates (x :: xs) s [] (stepRotors s) (some m)

/-- The stepping neither reads nor writes the messages, the count and the response (R158, R159). -/
theorem stepRotors_of_messages (s : State) (c p : Message) (n : BitVec 6) (r : Option Word) :
    stepRotors { s with cmsg := c, plain := p, outCount := n, rsp := r } =
      { stepRotors s with cmsg := c, plain := p, outCount := n, rsp := r } := by simp only [stepRotors_eq]

theorem exists_iterates (xs : List Symbol) (s : State) : ∃ ys t o, Iterates xs s ys t o := by
  induction xs generalizing s with
  | nil => exact ⟨[], s, none, .done s⟩
  | cons x xs ih =>
    cases h : substitute (stepRotors s) x with
    | error m => exact ⟨[], stepRotors s, some m, .failed h⟩
    | ok y =>
      obtain ⟨ys, t, o, hi⟩ := ih (stepRotors s)
      exact ⟨y :: ys, t, o, .answered h hi⟩

namespace Iterates

variable {xs ys : List Symbol} {s t : State} {o : Option Miss} {m : Miss}

/-- Iterations write the scrambled wheels only (R159, R161). -/
theorem frame (h : Iterates xs s ys t o) : t = { s with scr1 := t.scr1, scr2 := t.scr2, scr3 := t.scr3 } := by
  induction h with
  | done s => rfl
  | answered _ _ ih =>
    rw [ih, stepRotors_eq]
  | failed _ => rw [stepRotors_eq]

theorem engState_eq (h : Iterates xs s ys t o) : t.engState = s.engState := by rw [h.frame]

/-- Iterations that complete answer each symbol. -/
theorem length_of_completed (h : Iterates xs s ys t none) : ys.length = xs.length := by
  generalize ho : (none : Option Miss) = o at h
  induction h with
  | done s => rfl
  | answered _ _ ih => simp [ih ho]
  | failed _ => cases ho

/-- Iterations that fail leave a symbol unanswered. -/
theorem length_of_failed (h : Iterates xs s ys t (some m)) : ys.length < xs.length := by
  generalize ho : some m = o at h
  induction h with
  | done s => cases ho
  | answered _ _ ih => simpa using ih ho
  | failed _ => simp

/-- Iterations neither read nor write the messages, the count and the response, so they run alike whatever those hold
(R161). -/
theorem of_messages (h : Iterates xs s ys t o) (c p : Message) (n : BitVec 6) (r : Option Word) :
    Iterates xs { s with cmsg := c, plain := p, outCount := n, rsp := r } ys
      { t with cmsg := c, plain := p, outCount := n, rsp := r } o := by
  induction h with
  | done s => exact .done _
  | answered hsub _ ih =>
    rw [← stepRotors_of_messages] at ih
    exact .answered (by rwa [stepRotors_of_messages]) ih
  | failed hsub =>
    rw [← stepRotors_of_messages]
    exact .failed (by rwa [stepRotors_of_messages])

end Iterates

/-! ### A run of CIPHER commands (R162) -/

/-- CONSISTENCY where a lookup failed, else nothing (R150). -/
def raiseIfMissed : Option Miss → State → State
  | none, s => s
  | some m, s => raiseMiss m s

theorem resultBytes_okWord_cons (y : Byte) (rs : List Word) : resultBytes (okWord y :: rs) = y :: resultBytes rs := by
  rw [← List.singleton_append, resultBytes_append, resultBytes_okWord, List.singleton_append]

/-- The response to an error carries no result (R71, R224). -/
theorem resultBytes_error_cons (v : Byte) (rs : List Word) :
    resultBytes (responseWord true false v :: rs) = resultBytes rs :=
  List.filterMap_cons_none (by rw [responseWord_dv]; rfl)

/-- In FAULTED a run of CIPHERs gives no result and changes the response only (R227). -/
theorem runCommands_cipher_of_faulted {s : State} (hf : s.engState = .faulted) (xs : List Symbol) :
    ∃ rs r, runCommands (xs.map .cipher) s = some (rs, { s with rsp := r }) ∧ resultBytes rs = [] := by
  induction xs generalizing s with
  | nil => exact ⟨[], s.rsp, rfl, rfl⟩
  | cons x xs ih =>
    have hexec : exec (.cipher x) s = .next (answerFaulted s) := gated_of_faulted hf _
    obtain ⟨rs, r, hrun, hrs⟩ := ih (s := answerFaulted s) hf
    exact ⟨_, r, runCommands_cons hexec rfl hrun, (resultBytes_error_cons _ rs).trans hrs⟩

/-- In READY CIPHER does the same whatever response was given before it (R60, R162). -/
theorem exec_cipher_of_rsp {s : State} (hr : s.engState = .ready) (d : Symbol) (r : Option Word) :
    exec (.cipher d) { s with rsp := r } = exec (.cipher d) s := by
  rw [exec_cipher_of_ready hr, exec_cipher_of_ready (s := { s with rsp := r }) hr]
  have hstep : stepRotors { s with rsp := r } = { stepRotors s with rsp := r } := by simp only [stepRotors_eq]
  have hsub : substitute { stepRotors s with rsp := r } d = substitute (stepRotors s) d := rfl
  simp only [cipherBody, hstep, hsub]
  cases substitute (stepRotors s) d <;> rfl

/-- A run of CIPHERs in READY follows the iterations and gives their answers; a failed lookup ends it in FAULTED
(R162). -/
theorem Iterates.runCommands_cipher {xs ys : List Symbol} {s t : State} {o : Option Miss}
    (h : Iterates xs s ys t o) (hr : s.engState = .ready) (r : Option Word) :
    ∃ rs r', runCommands (xs.map .cipher) { s with rsp := r } = some (rs, { raiseIfMissed o t with rsp := r' }) ∧
      resultBytes rs = ys := by
  induction h generalizing r with
  | done s => exact ⟨[], r, rfl, rfl⟩
  | @answered x y _ _ s _ _ hsub _ ih =>
    have hexec := (exec_cipher_of_rsp hr x r).trans (exec_cipher_of_ok hr hsub)
    obtain ⟨rs, r', hrun, hrs⟩ := ih ((stepRotors_engState s).trans hr) (some (okWord y))
    exact ⟨_, r', runCommands_cons hexec rfl hrun, by rw [resultBytes_okWord_cons, hrs]⟩
  | @failed x xs s m hsub =>
    have hexec := (exec_cipher_of_rsp hr x r).trans (exec_cipher_of_error hr hsub)
    obtain ⟨rs, r', hrun, hrs⟩ := runCommands_cipher_of_faulted (s := raiseMiss m (stepRotors s)) rfl xs
    exact ⟨_, r', runCommands_cons hexec rfl hrun, (resultBytes_error_cons _ rs).trans hrs⟩

/-! ### The loop of DECODE_MSG (R163) -/

/-- The first symbol of a message's rest, with its index. -/
theorem index_of_drop_eq_cons {v : Message} {n : Nat} {x : Symbol} {xs : List Symbol}
    (h : v.toList.drop n = x :: xs) :
    ∃ k : Fin 39, k.val = n ∧ v[k] = x ∧ v.toList.drop (k + 1) = xs ∧
      (List.finRange 39).drop k = k :: (List.finRange 39).drop (k + 1) := by
  have hn : n < 39 := by
    have := congrArg List.length h
    simp at this
    omega
  rw [List.drop_eq_getElem_cons (by simpa using hn), List.cons.injEq] at h
  obtain ⟨hx, hxs⟩ := h
  refine ⟨⟨n, hn⟩, rfl, by simpa using hx, hxs, ?_⟩
  rw [List.drop_eq_getElem_cons (by simpa using hn)]
  simp

/-- Writing the entry that follows a message's first entries. -/
theorem take_toList_set (p : Message) (k : Fin 39) (y : Symbol) :
    (p.set k y).toList.take (k + 1) = p.toList.take k ++ [y] := by
  rw [Vector.toList_set, List.take_set, ← List.take_concat_get' _ k.val (by simp)]
  simp

/-- The stepping neither reads nor writes the output buffer and its count (R159). -/
theorem stepRotors_of_output (s : State) (p : Message) (n : BitVec 6) :
    stepRotors { s with plain := p, outCount := n } = { stepRotors s with plain := p, outCount := n } := by
  simp only [stepRotors_eq]

/-- One turn of the loop whose lookups answer (R163). -/
theorem decodeLoop_cons_of_ok {k : Fin 39} {ks : List (Fin 39)} {s : State} {y : Symbol}
    (h : substitute (stepRotors s) s.cmsg[k] = .ok y) (p : Message) (n : BitVec 6) :
    decodeLoop (k :: ks) { s with plain := p, outCount := n } =
      decodeLoop ks { stepRotors s with plain := p.set k y, outCount := BitVec.ofNat 6 (k + 1) } := by
  have hsub : substitute { stepRotors s with plain := p, outCount := n } s.cmsg[k] = .ok y := h
  simp only [decodeLoop, stepRotors_of_output, hsub]

/-- One turn of the loop with a lookup that fails (R164). -/
theorem decodeLoop_cons_of_error {k : Fin 39} {ks : List (Fin 39)} {s : State} {m : Miss}
    (h : substitute (stepRotors s) s.cmsg[k] = .error m) (p : Message) (n : BitVec 6) :
    decodeLoop (k :: ks) { s with plain := p, outCount := n } =
      ({ stepRotors s with plain := p, outCount := n }, some m) := by
  have hsub : substitute { stepRotors s with plain := p, outCount := n } s.cmsg[k] = .error m := h
  simp only [decodeLoop, stepRotors_of_output, hsub]

/-- The loop of DECODE_MSG from index `n` follows the iterations on the rest of the ciphertext: it stores their answers
after the first `n` entries of `plain` and counts them (R163, R164). -/
theorem Iterates.decodeLoop_eq {n : Nat} {ys : List Symbol} {s t : State} {o : Option Miss}
    (h : Iterates (s.cmsg.toList.drop n) s ys t o) (p : Message) :
    ∃ q : Message, decodeLoop ((List.finRange 39).drop n) { s with plain := p, outCount := BitVec.ofNat 6 n } =
        ({ t with plain := q, outCount := BitVec.ofNat 6 (n + ys.length) }, o) ∧
      q.toList.take (n + ys.length) = p.toList.take n ++ ys := by
  generalize hxs : s.cmsg.toList.drop n = xs at h
  induction h generalizing n p with
  | done s =>
    have hn : (List.finRange 39).drop n = [] := by simpa using hxs
    exact ⟨p, by rw [hn]; rfl, by simp⟩
  | @answered x y xs ys s t o hsub _ ih =>
    obtain ⟨k, rfl, rfl, hrest, hks⟩ := index_of_drop_eq_cons hxs
    obtain ⟨q, hloop, hq⟩ := ih (p.set k y) (by rwa [stepRotors_eq])
    have hlen : k + 1 + ys.length = k + (y :: ys).length := by rw [List.length_cons]; omega
    rw [hlen] at hloop hq
    refine ⟨q, ?_, by rw [hq, take_toList_set, List.append_assoc, List.singleton_append]⟩
    rw [hks, decodeLoop_cons_of_ok hsub, hloop]
  | failed hsub =>
    obtain ⟨k, rfl, rfl, -, hks⟩ := index_of_drop_eq_cons hxs
    exact ⟨p, by rw [hks, decodeLoop_cons_of_error hsub]; rfl, by simp⟩

/-! ### DECODE_MSG (R163, R164, R167) -/

/-- The whole loop of DECODE_MSG follows the iterations on the ciphertext (R163). -/
theorem Iterates.decodeLoop_finRange {s t : State} {ys : List Symbol} {o : Option Miss}
    (h : Iterates s.cmsg.toList s ys t o) :
    ∃ q : Message, decodeLoop (List.finRange 39) { s with outCount := 0 } =
        ({ t with plain := q, outCount := BitVec.ofNat 6 ys.length }, o) ∧ q.toList.take ys.length = ys := by
  obtain ⟨q, hloop, hq⟩ := Iterates.decodeLoop_eq (n := 0) h s.plain
  rw [Nat.zero_add] at hloop hq
  exact ⟨q, hloop, hq⟩

/-- DECODE_MSG whose iterations complete stores their answers (R163). -/
theorem decodeMsgBody_of_completed {s t : State} {ys : List Symbol} (h : Iterates s.cmsg.toList s ys t none) :
    ∃ q : Message, q.toList = ys ∧ decodeMsgBody s = { t with plain := q, outCount := 39, rsp := some 0x0000 } := by
  obtain ⟨q, hloop, hq⟩ := h.decodeLoop_finRange
  have hlen : ys.length = 39 := by rw [h.length_of_completed, Vector.length_toList]
  refine ⟨q, by rwa [List.take_of_length_le (by simp [hlen])] at hq, ?_⟩
  simp only [decodeMsgBody, hloop, hlen]
  rfl

/-- DECODE_MSG with a failed lookup stores and counts the answers before it (R164). -/
theorem decodeMsgBody_of_failed {s t : State} {ys : List Symbol} {m : Miss}
    (h : Iterates s.cmsg.toList s ys t (some m)) :
    ∃ q : Message, q.toList.take ys.length = ys ∧
      decodeMsgBody s = { raiseMiss m t with plain := q, outCount := BitVec.ofNat 6 ys.length } := by
  obtain ⟨q, hloop, hq⟩ := h.decodeLoop_finRange
  refine ⟨q, hq, ?_⟩
  simp only [decodeMsgBody, hloop]
  rfl

/-- Settles O31: the run of CIPHERs and DECODE_MSG follow the same iterations, which complete or fail. -/
theorem decodeMsgIsThirtyNineCiphers : Obligations.DecodeMsgIsThirtyNineCiphers := by
  intro s hr
  obtain ⟨ys, t, o, h⟩ := exists_iterates s.cmsg.toList s
  obtain ⟨rs, r, hrun, rfl⟩ := h.runCommands_cipher hr s.rsp
  refine ⟨rs, _, _, hrun, exec_decodeMsg_of_ready hr, ?_⟩
  cases o with
  | none =>
    obtain ⟨q, hq, hbody⟩ := decodeMsgBody_of_completed h
    rw [hbody]
    exact ⟨fun _ => ⟨rfl, hq⟩, fun hn => absurd (h.engState_eq.trans hr) hn⟩
  | some m =>
    obtain ⟨q, hq, hbody⟩ := decodeMsgBody_of_failed h
    rw [hbody]
    exact ⟨fun hready => (nomatch hready), fun _ => ⟨rfl, by simpa using h.length_of_failed, rfl, hq⟩⟩

/-- With valid wheels iterations on the alphabet complete, and iterations on their answers from the same wheels give the
symbols back (R167). -/
theorem ValidWheels.iterates_reciprocal {s : State} (h : ValidWheels s) {xs : List Symbol}
    (hxs : ∀ x ∈ xs, x ∈ Config.alphabet) :
    ∃ ys t, Iterates xs s ys t none ∧ Iterates ys s xs t none ∧
      List.Forall₂ (fun x y => y ∈ Config.alphabet ∧ y ≠ x) xs ys := by
  induction xs generalizing s with
  | nil => exact ⟨[], s, .done s, .done s, .nil⟩
  | cons x xs ih =>
    rw [List.forall_mem_cons] at hxs
    have hstepped := stepRotors_validWheels h
    obtain ⟨y, hy, hne, hxy, hyx⟩ := hstepped.substitute_reciprocal hxs.1
    obtain ⟨ys, t, hthere, hback, hall⟩ := ih hstepped hxs.2
    exact ⟨y :: ys, t, .answered hxy hthere, .answered hyx hback, .cons ⟨hy, hne⟩ hall⟩

theorem forall_mem_toList {v : Message} {P : Symbol → Prop} (h : ∀ k : Fin 39, P v[k]) : ∀ x ∈ v.toList, P x :=
  fun x hx => Vector.forall_mem_iff_forall_getElem.2 (fun k hk => h ⟨k, hk⟩) x (Vector.mem_toList_iff.1 hx)

/-- Settles O32: the iterations complete with answers in the alphabet, and they write the scrambled wheels only. -/
theorem decodeMsgOfAValidMessageCompletes : Obligations.DecodeMsgOfAValidMessageCompletes := by
  intro s hr hvalid hcmsg
  obtain ⟨ys, t, h, -, hall⟩ := ValidWheels.iterates_reciprocal hvalid (forall_mem_toList hcmsg)
  obtain ⟨q, rfl, hbody⟩ := decodeMsgBody_of_completed h
  refine ⟨_, exec_decodeMsg_of_ready hr, fun k => ?_, ?_⟩
  · rw [hbody]
    simpa using hall.get (i := k) (by simp) (by simp)
  · rw [hbody, h.frame]

/-- Settles O33: the second run iterates on the answers of the first, from the same wheels. -/
theorem decodingTheDecodedMessageGivesItBack : Obligations.DecodingTheDecodedMessageGivesItBack := by
  intro s hr hvalid hcmsg
  obtain ⟨ys, t, hthere, hback, -⟩ := ValidWheels.iterates_reciprocal hvalid (forall_mem_toList hcmsg)
  obtain ⟨q, rfl, hbody⟩ := decodeMsgBody_of_completed hthere
  obtain ⟨q', hq', hbody'⟩ := decodeMsgBody_of_completed (s := { s with cmsg := q })
    (hback.of_messages q s.plain s.outCount s.rsp)
  have hfirst := exec_decodeMsg_of_ready hr
  rw [hbody] at hfirst
  have hsecond := (exec_decodeMsg_of_ready (s := { s with cmsg := q }) hr).trans (congrArg Host.Outcome.next hbody')
  exact ⟨_, _, hfirst, hsecond, Vector.toList_inj.1 hq', rfl, rfl, rfl, rfl⟩

end Sys2Proof.Machine

namespace Sys2Proof.Machine

/-! ### READ of selectors 0 to 8 in READY (R191, R192) -/

/-- READ below its table's limit answers the entry and writes the response only (R191). -/
theorem readTable_of_entry {table : State → List Byte} {i v : Byte} {s : State} (hr : s.engState = .ready)
    (h : (table s)[i.toNat]? = some v) : readTable table i s = .next { s with rsp := some (okWord v) } := by
  rw [readTable, gated_whenReady_of_ready hr, readEntry, h, ← okv_eq]

/-- READ at or past its table's limit raises RANGE (R191, R221). -/
theorem readTable_of_length_le {table : State → List Byte} {i : Byte} {s : State} (hr : s.engState = .ready)
    (h : (table s).length ≤ i.toNat) : readTable table i s = .next (Raised s .range 0x8005) := by
  rw [readTable, gated_whenReady_of_ready hr, readEntry, List.getElem?_eq_none h, raisePlain_eq]
  rfl

/-- The operand `j` selects entry `j` of a table with at most 256 entries (R72). -/
theorem toList_getElem?_operand {n : Nat} (hn : n ≤ 256) (v : Vector Byte n) (j : Fin n) :
    v.toList[(BitVec.ofNat 8 j).toNat]? = some v[j] := by
  rw [BitVec.toNat_ofNat, Nat.mod_eq_of_lt (j.isLt.trans_le hn)]
  simp

/-- READ PLAIN sees the entries below `out_count` (R34, R192). -/
theorem plainTable_getElem? {s : State} {k : Nat} (h : k < s.outCount.toNat) :
    (plainTable s)[k]? = s.plain.toList[k]? := by
  rw [plainTable, List.getElem?_take_of_lt h]

/-- Settles O38: each operand selects its entry of the table. -/
theorem readAnswersTheTableEntry : Obligations.ReadAnswersTheTableEntry := by
  intro s hr
  have wheel (w : Wheel) (j : Fin 94) := toList_getElem?_operand (by decide) w j
  have message (m : Message) (k : Fin 39) := toList_getElem?_operand (by decide) m k
  refine ⟨fun j => ⟨readTable_of_entry hr (wheel s.stat j), readTable_of_entry hr (wheel s.refl j),
      readTable_of_entry hr (wheel s.scr1 j), readTable_of_entry hr (wheel s.scr2 j),
      readTable_of_entry hr (wheel s.scr3 j)⟩,
    readTable_of_entry hr rfl, readTable_of_entry hr rfl, readTable_of_entry hr rfl, readTable_of_entry hr rfl,
    readTable_of_entry hr rfl, fun k => ⟨readTable_of_entry hr (message s.cmsg k), fun hk => ?_⟩⟩
  have hoperand : (BitVec.ofNat 8 k).toNat < s.outCount.toNat := (Nat.mod_le ..).trans_lt hk
  exact readTable_of_entry hr ((plainTable_getElem? hoperand).trans (message s.plain k))

/-! ### READ past its limit (R191, R221) -/

/-- READ REGS at or past its limit passes the FAULTED gate and raises RANGE (R191, R226). -/
theorem exec_readRegs_of_le {i : Byte} (hi : 8 ≤ i.toNat) (s : State) :
    exec (.readRegs i) s = gated (raisePlain .range) s := by
  simp [exec, execReadRegs, Nat.not_lt.2 hi]

/-- Settles O39: the length of each table is its limit. -/
theorem readPastTheLimitRaisesRange : Obligations.ReadPastTheLimitRaisesRange := by
  intro s i
  refine ⟨fun hr => ⟨fun h => ?_, fun h => readTable_of_length_le hr h, fun h => readTable_of_length_le hr h,
    fun h => readTable_of_length_le hr (s.cmsg.length_toList.trans_le h), fun h => readTable_of_length_le hr ?_⟩,
    fun hf hi => ?_⟩
  · have wheel (w : Wheel) : w.toList.length ≤ i.toNat := w.length_toList.trans_le h
    simp only [List.forall_mem_cons]
    exact ⟨readTable_of_length_le hr (wheel s.stat), readTable_of_length_le hr (wheel s.refl),
      readTable_of_length_le hr (wheel s.scr1), readTable_of_length_le hr (wheel s.scr2),
      readTable_of_length_le hr (wheel s.scr3), List.forall_mem_nil _⟩
  · exact (List.length_take_le ..).trans h
  · rw [exec_readRegs_of_le hi, gated_of_not_faulted hf, raisePlain_eq]
    rfl

/-! ### No command reads the response (R60, R196) -/

/-- The value at a state does not depend on the response held there. -/
def IgnoresResponse {α : Type} (f : State → α) : Prop :=
  ∀ (s : State) (r : Option Word), f { s with rsp := r } = f s

theorem IgnoresResponse.gated {body : State → State} (h : IgnoresResponse body) :
    IgnoresResponse (gated body) := by
  intro s r
  rw [Machine.gated, Machine.gated, h s r]
  rfl

theorem IgnoresResponse.whenReady {body : State → State} (h : IgnoresResponse body) :
    IgnoresResponse (whenReady body) := by
  intro s r
  rw [Machine.whenReady, Machine.whenReady, h s r]
  rfl

theorem readEntry_ignoresResponse (table : List Byte) (i : Byte) : IgnoresResponse (readEntry table i) := by
  intro s r
  rw [readEntry, readEntry]
  cases table[i.toNat]? <;> rfl

theorem readTable_ignoresResponse {table : State → List Byte} (h : IgnoresResponse table) (i : Byte) :
    IgnoresResponse (readTable table i) := by
  have hbody : IgnoresResponse fun s => readEntry (table s) i s := fun s r =>
    (congrArg (readEntry · i _) (h s r)).trans (readEntry_ignoresResponse (table s) i s r)
  exact hbody.whenReady.gated

theorem readRegs_ignoresResponse (i : Byte) : IgnoresResponse (exec (.readRegs i)) := by
  intro s r
  rcases Nat.lt_or_ge i.toNat 8 with hi | hi
  · have hentry : (regsTable s)[i.toNat]? = some (regsTable s)[i.toNat] := List.getElem?_eq_getElem hi
    rw [exec_readRegs_of_entry hentry, exec_readRegs_of_entry (s := { s with rsp := r }) hentry]
    rfl
  · have hraise : IgnoresResponse (raisePlain .range) := fun _ _ => rfl
    rw [exec_readRegs_of_le hi, exec_readRegs_of_le hi, hraise.gated]

theorem capture_of_rsp (p : Byte) (s : State) (r : Option Word) :
    capture p { s with rsp := r } = { capture p s with rsp := r } := by
  rcases Nat.lt_or_ge s.pktCount.toNat 4 with h4 | h4
  · rw [capture_of_header h4, capture_of_header (s := { s with rsp := r }) h4]
  rcases Nat.lt_or_ge s.pktCount.toNat 518 with hn | hn
  · rw [capture_of_payload h4 hn, capture_of_payload (s := { s with rsp := r }) h4 hn]
  · rw [capture_of_full hn, capture_of_full (s := { s with rsp := r }) hn]

theorem extByteBody_ignoresResponse (d : Byte) : IgnoresResponse (extByteBody d) := by
  intro s r
  have hcapture := capture_of_rsp (packBit d s) { s with extAcc := 0, extCnt := 0 } r
  have hpack : packBit d { s with rsp := r } = packBit d s := rfl
  simp only [extByteBody, hpack, hcapture]
  rfl

theorem startSteps_of_rsp (rs : List Rotor) (s : State) (r : Option Word) :
    startSteps rs { s with rsp := r } = ({ (startSteps rs s).1 with rsp := r }, (startSteps rs s).2) := by
  induction rs generalizing s with
  | nil => rfl
  | cons q rs ih =>
    have hscr : ({ s with rsp := r } : State).scr q = s.scr q := by cases q <;> rfl
    have hstart : ({ s with rsp := r } : State).start q = s.start q := by cases q <;> rfl
    have hset (w : Wheel) : ({ s with rsp := r } : State).setScr q w = { s.setScr q w with rsp := r } := by
      cases q <;> rfl
    simp only [startSteps, hscr, hstart, hset]
    cases stepTo (s.scr q) (s.start q) with
    | none => rfl
    | some w => exact ih (s.setScr q w)

theorem loadBody_ignoresResponse : IgnoresResponse loadBody := by
  intro s r
  have hsteps := startSteps_of_rsp [.r1, .r2, .r3] (sliceFields s) r
  have hslice : sliceFields { s with rsp := r } = { sliceFields s with rsp := r } := rfl
  simp only [loadBody, hslice, hsteps]
  cases startSteps [.r1, .r2, .r3] (sliceFields s) with
  | mk t o => cases o <;> rfl

theorem stepRotors_of_rsp (s : State) (r : Option Word) :
    stepRotors { s with rsp := r } = { stepRotors s with rsp := r } := by simp only [stepRotors_eq]

theorem substitute_ignoresResponse (x : Symbol) : IgnoresResponse (substitute · x) := fun _ _ => rfl

theorem cipherBody_ignoresResponse (d : Symbol) : IgnoresResponse (cipherBody d) := by
  intro s r
  have hsub := substitute_ignoresResponse d (stepRotors s) r
  simp only [cipherBody, stepRotors_of_rsp, hsub]
  cases substitute (stepRotors s) d <;> rfl

theorem decodeLoop_of_rsp (ks : List (Fin 39)) (s : State) (r : Option Word) :
    decodeLoop ks { s with rsp := r } = ({ (decodeLoop ks s).1 with rsp := r }, (decodeLoop ks s).2) := by
  induction ks generalizing s with
  | nil => rfl
  | cons k ks ih =>
    have hsub := substitute_ignoresResponse s.cmsg[k] (stepRotors s) r
    simp only [decodeLoop, stepRotors_of_rsp, hsub]
    cases substitute (stepRotors s) s.cmsg[k] with
    | error m => rfl
    | ok y => exact ih { stepRotors s with plain := s.plain.set k y, outCount := BitVec.ofNat 6 (k.val + 1) }

theorem decodeMsgBody_ignoresResponse : IgnoresResponse decodeMsgBody := by
  intro s r
  have hloop := decodeLoop_of_rsp (List.finRange 39) { s with outCount := 0 } r
  simp only [decodeMsgBody, hloop]
  cases decodeLoop (List.finRange 39) { s with outCount := 0 } with
  | mk t o => cases o <;> rfl

/-- No command's outcome depends on the response given before it (R196). -/
theorem exec_ignoresResponse (i : Instr) : IgnoresResponse (exec i) := by
  cases i with
  | nop | status | softReset => exact fun _ _ => rfl
  | extByte d => exact (extByteBody_ignoresResponse d).gated
  | extEnd =>
    have hbody : IgnoresResponse extEndBody := fun _ _ => rfl
    exact hbody.gated
  | load => exact loadBody_ignoresResponse.gated
  | cipher d => exact (cipherBody_ignoresResponse d).whenReady.gated
  | decodeMsg => exact decodeMsgBody_ignoresResponse.whenReady.gated
  | readStat _ | readRefl _ | readScr1 _ | readScr2 _ | readScr3 _ | readNotch _ | readStart _ | readCmsg _
  | readPlain _ => exact readTable_ignoresResponse (fun _ _ => rfl) _
  | readRegs i => exact readRegs_ignoresResponse i

/-! ### What NOP, STATUS and the READs do (R196) -/

/-- The effects of NOP, STATUS and READ: a success writes the response only, and an error is raised or was recorded
before. -/
inductive ReadEffect (s : State) : State → Prop
  /-- `ok()` or `ok(v)` (R10). -/
  | answered (dv : Bool) (v : Byte) : ReadEffect s (respond false dv v s)
  /-- NOT_READY or RANGE (R221). -/
  | raised (e : ErrCode) : e ≠ .noError → ReadEffect s (raisePlain e s)
  /-- The recorded error, in FAULTED (R227). -/
  | recorded : s.engState = .faulted → ReadEffect s (answerFaulted s)

theorem readEntry_readEffect (table : List Byte) (i : Byte) (s : State) : ReadEffect s (readEntry table i s) := by
  obtain ⟨v, -, h⟩ | ⟨-, h⟩ := readEntry_cases table i s <;> rw [h]
  · exact .answered true v
  · exact .raised .range (by simp)

theorem gated_readEffect {body : State → State} {s : State} (h : s.engState ≠ .faulted → ReadEffect s (body s)) :
    ∃ t, gated body s = .next t ∧ ReadEffect s t := by
  by_cases hf : s.engState = .faulted
  · exact ⟨_, gated_of_faulted hf body, .recorded hf⟩
  · exact ⟨_, gated_of_not_faulted hf body, h hf⟩

theorem readTable_readEffect (table : State → List Byte) (i : Byte) (s : State) :
    ∃ t, readTable table i s = .next t ∧ ReadEffect s t := by
  refine gated_readEffect fun _ => ?_
  unfold whenReady
  split
  · exact .raised .notReady (by simp)
  · exact readEntry_readEffect (table s) i s

theorem readRegs_readEffect (i : Byte) (s : State) : ∃ t, exec (.readRegs i) s = .next t ∧ ReadEffect s t := by
  rcases Nat.lt_or_ge i.toNat 8 with hi | hi
  · exact ⟨_, exec_readRegs_of_entry (List.getElem?_eq_getElem hi), .answered true _⟩
  · exact exec_readRegs_of_le hi s ▸ gated_readEffect fun _ => .raised .range (by simp)

/-- Where the response has `err` = 0 it is all that was written, and where it has `err` = 1 the block is FAULTED
(R71, R224). -/
theorem ReadEffect.pure_or_faulted {s t : State} (h : ReadEffect s t) :
    ∃ r, t.rsp = some r ∧ (r.getLsbD 15 = false → t = { s with rsp := some r }) ∧
      (r.getLsbD 15 = true → t.engState = .faulted ∧ (s.engState ≠ .faulted → t.errCode ≠ .noError)) := by
  cases h with
  | answered dv v =>
    refine ⟨_, rfl, ?_⟩
    rw [responseWord_err]
    exact ⟨fun _ => rfl, (nomatch ·)⟩
  | raised e he =>
    refine ⟨_, rfl, ?_⟩
    rw [responseWord_err]
    exact ⟨(nomatch ·), fun _ => ⟨rfl, fun _ => he⟩⟩
  | recorded hf =>
    refine ⟨_, rfl, ?_⟩
    rw [responseWord_err]
    exact ⟨(nomatch ·), fun _ => ⟨hf, fun hn => absurd hf hn⟩⟩

/-- Settles O41: each of the commands has a `ReadEffect`, and no command reads the response. -/
theorem successfulReadsArePure : Obligations.SuccessfulReadsArePure := by
  intro b s c hc
  have heffect : ∃ t, exec c s = .next t ∧ ReadEffect s t := by
    revert c
    simp only [List.forall_mem_cons]
    exact ⟨⟨_, rfl, .answered false 0⟩, ⟨_, rfl, .answered true _⟩, readTable_readEffect .., readTable_readEffect ..,
      readTable_readEffect .., readTable_readEffect .., readTable_readEffect .., readTable_readEffect ..,
      readTable_readEffect .., readTable_readEffect .., readTable_readEffect .., readRegs_readEffect b s,
      List.forall_mem_nil _⟩
  obtain ⟨t, hexec, ht⟩ := heffect
  obtain ⟨r, hrsp, hpure, hfaulted⟩ := ht.pure_or_faulted
  refine ⟨t, r, hexec, hrsp, fun herr => ⟨hpure herr, fun i => ?_⟩, hfaulted⟩
  rw [hpure herr, exec_ignoresResponse]

/-! ### NOP, and the reset state (R190, R261) -/

/-- A word decodes to a command exactly where it is the command's encoding (R73, R74). -/
theorem decode_eq_ok_iff {w : Word} {i : Instr} : decode w = .ok i ↔ w = encode i := by
  refine ⟨fun h => (decodeThenEncodeGivesTheWord w i h).symm, ?_⟩
  rintro rfl
  exact encodeThenDecodeGivesTheCommand i

/-- Settles O36: NOP is `ok()` in every state, 0x0000 is its encoding, and the other words of its opcode are illegal. -/
theorem nopAnswersOk : Obligations.NopAnswersOk := by
  refine ⟨fun s => congrArg Host.Outcome.next (ok_eq s), fun w => ⟨decode_eq_ok_iff, fun hlo hhi => ?_⟩⟩
  exact (illegalWordsAreTheListedRanges w).2 (by omega)

/-- With the values R261 states, STATUS answers `ok(0x00)` (R195). -/
theorem exec_status_of_resetValues {s : State} (h : ResetValues s) :
    exec .status s = .next { s with rsp := some 0x4000 } := by
  have hstatus : statusByte s = 0 := by
    simp [statusByte, extPart, msgDone, capFull, h.extCnt, h.outCount, h.pktCount, h.errCode, h.engState,
      ErrCode.bits, EngState.bits]
  rw [exec, execStatus, hstatus, okv_eq]
  rfl

/-- Settles O50: each register is read off, and STATUS follows from the stated values alone. -/
theorem resetStateHoldsTheStatedValues : Obligations.ResetStateHoldsTheStatedValues := by
  have hreset : ResetValues State.reset := by constructor <;> rfl
  exact ⟨hreset, exec_status_of_resetValues hreset⟩

end Sys2Proof.Machine

namespace Sys2Proof.Machine

/-! ### What FAULTED executes (R227) -/

/-- The commands that run in FAULTED as their rules say (R227). -/
inductive RunsInFaulted : Instr → Prop
  | nop : RunsInFaulted .nop
  | status : RunsInFaulted .status
  | softReset : RunsInFaulted .softReset
  | readRegs {i : Byte} : i.toNat < 8 → RunsInFaulted (.readRegs i)

/-- The words listed by R227: 0x0000, 0x7000, 0xF000 and 0x6900 to 0x6907. -/
abbrev FaultedWord (w : Word) : Prop :=
  w = 0x0000#16 ∨ w = 0x7000#16 ∨ w = 0xF000#16 ∨ (0x6900 ≤ w.toNat ∧ w.toNat ≤ 0x6907)

/-- A command that runs in FAULTED resets the block, or writes a response with `err` = 0 and nothing else (R190, R193,
R194, R195). -/
theorem RunsInFaulted.exec_cases {i : Instr} (h : RunsInFaulted i) (s : State) :
    (i = .softReset ∧ exec i s = .next (ok (resetState s))) ∨
      ∃ dv v, exec i s = .next (respond false dv v s) := by
  cases h with
  | nop => exact .inr ⟨false, 0, rfl⟩
  | status => exact .inr ⟨true, statusByte s, rfl⟩
  | softReset => exact .inl ⟨rfl, rfl⟩
  | readRegs hi => exact .inr ⟨true, _, exec_readRegs_of_entry (List.getElem?_eq_getElem hi)⟩

/-- In FAULTED every other command is stopped by the gate (R226, R227). -/
theorem exec_of_not_runsInFaulted {i : Instr} {s : State} (hf : s.engState = .faulted) (hi : ¬RunsInFaulted i) :
    exec i s = .next (answerFaulted s) := by
  cases i with
  | nop => exact absurd .nop hi
  | status => exact absurd .status hi
  | softReset => exact absurd .softReset hi
  | readRegs k =>
    have hk : 8 ≤ k.toNat := Nat.not_lt.1 fun h => hi (.readRegs h)
    rw [exec_readRegs_of_le hk, gated_of_faulted hf]
  | extByte _ | extEnd | load | cipher _ | decodeMsg | readStat _ | readRefl _ | readScr1 _ | readScr2 _ | readScr3 _
  | readNotch _ | readStart _ | readCmsg _ | readPlain _ => exact gated_of_faulted hf _

/-- The word of READ REGS as a number (R74). -/
theorem encode_readRegs_toNat (i : Byte) : (encode (.readRegs i)).toNat = 0x6900 + i.toNat := by
  rw [toNat_eq_fieldsOf, encode, fieldsOf_word]
  simp [Instr.fields]

/-- The listed words are those of the commands that run in FAULTED (R227). -/
theorem faultedWord_iff {w : Word} : FaultedWord w ↔ ∃ i, decode w = .ok i ∧ RunsInFaulted i := by
  simp only [decode_eq_ok_iff]
  constructor
  · rintro (rfl | rfl | rfl | ⟨hlo, hhi⟩)
    · exact ⟨.nop, rfl, .nop⟩
    · exact ⟨.status, rfl, .status⟩
    · exact ⟨.softReset, rfl, .softReset⟩
    · have hindex : (BitVec.ofNat 8 (w.toNat - 0x6900)).toNat = w.toNat - 0x6900 := by
        rw [BitVec.toNat_ofNat]; omega
      refine ⟨.readRegs (BitVec.ofNat 8 (w.toNat - 0x6900)), BitVec.eq_of_toNat_eq ?_, .readRegs ?_⟩
      · rw [encode_readRegs_toNat]; omega
      · omega
  · rintro ⟨i, rfl, hi⟩
    cases hi with
    | nop => exact .inl rfl
    | status => exact .inr (.inl rfl)
    | softReset => exact .inr (.inr (.inl rfl))
    | @readRegs k hk =>
      have hword := encode_readRegs_toNat k
      exact .inr (.inr (.inr (by omega)))

/-- In FAULTED a word not listed is answered with the recorded error and changes nothing else (R227). -/
theorem runWord_of_not_faultedWord {w : Word} {s : State} (hf : s.engState = .faulted) (hw : ¬FaultedWord w) :
    runWord w s = .next (answerFaulted s) := by
  cases hd : decode w with
  | ok i =>
    have hi : ¬RunsInFaulted i := fun hi => hw (faultedWord_iff.2 ⟨i, hd, hi⟩)
    rw [runWord_of_decode_ok hd, exec_of_not_runsInFaulted hf hi]
  | error e => rw [runWord_of_decode_error hd, illegalWord, gated_of_faulted hf]

/-- Settles O43: a listed word is that of a command that runs in FAULTED, which answers with `err` = 0, and every other
word is stopped by the gate. -/
theorem faultedAnswersTheRecordedError : Obligations.FaultedAnswersTheRecordedError := by
  intro w s hf
  constructor
  · intro hw
    obtain ⟨i, hd, hi⟩ := faultedWord_iff.1 hw
    obtain ⟨-, he⟩ | ⟨dv, v, he⟩ := hi.exec_cases s <;>
      exact ⟨i, _, _, hd, runWord_of_decode_ok hd s, he, rfl, responseWord_err ..⟩
  · intro hw
    rw [runWord_of_not_faultedWord hf hw, answerFaulted_eq]

/-! ### The way out of FAULTED (R228) -/

/-- In FAULTED a word is SOFT_RESET's and resets the block, or it writes the response and nothing else (R227, R228). -/
theorem runWord_of_faulted {w : Word} {s t : State} (hf : s.engState = .faulted) (h : runWord w s = .next t) :
    (w = 0xF000#16 ∧ t = ok (resetState s)) ∨ ∃ err dv v, t = respond err dv v s := by
  by_cases hw : FaultedWord w
  · obtain ⟨i, hd, hi⟩ := faultedWord_iff.1 hw
    rw [runWord_of_decode_ok hd] at h
    obtain ⟨rfl, he⟩ | ⟨dv, v, he⟩ := hi.exec_cases s
    · exact .inl ⟨decode_eq_ok_iff.1 hd, Host.Outcome.next.inj (h.symm.trans he)⟩
    · exact .inr ⟨false, dv, v, Host.Outcome.next.inj (h.symm.trans he)⟩
  · exact .inr ⟨true, false, _, Host.Outcome.next.inj (h.symm.trans (runWord_of_not_faultedWord hf hw))⟩

/-- Settles O44, by the cases of `step_cases`: the pin resets the block, an accepted word resets it or only answers, and
the other edges move the interface. -/
theorem faultedIsLeftOnlyByReset : Obligations.FaultedIsLeftOnlyByReset := by
  intro s t hf ht
  obtain ⟨-, hs⟩ | ⟨p, rest, hin, ⟨hrst, hs⟩ | ⟨-, r, -, -, hs⟩ | ⟨-, hs⟩ | ⟨-, hrsp, w, hcmd, hs⟩⟩ := step_cases s <;>
    rw [hs] at ht
  · exact Host.Outcome.next.inj ht ▸ .inr rfl
  · obtain rfl := Host.Outcome.next.inj ht
    exact .inl ⟨{ resetState_resetValues { s with inputs := rest } with }, p, rest, hin, .inl hrst⟩
  · exact Host.Outcome.next.inj ht ▸ .inr rfl
  · exact Host.Outcome.next.inj ht ▸ .inr rfl
  · obtain ⟨rfl, rfl⟩ | ⟨err, dv, v, rfl⟩ := runWord_of_faulted (s := { s with inputs := rest }) hf ht
    · exact .inl ⟨{ resetState_resetValues { s with inputs := rest } with }, p, rest, hin, .inr ⟨hrsp, hcmd⟩⟩
    · exact .inr rfl

end Sys2Proof.Machine

namespace Sys2Proof.Machine

/-! ### What reads the engine registers answers alike on equal engines (R135, R262) -/

section
variable {s t : State} (h : SameEngine s t)
include h

theorem SameEngine.scr_eq (r : Rotor) : s.scr r = t.scr r := by
  cases r
  exacts [h.scr1, h.scr2, h.scr3]

theorem SameEngine.start_eq (r : Rotor) : s.start r = t.start r := by
  cases r
  exacts [h.start1, h.start2, h.start3]

theorem SameEngine.setScr (r : Rotor) (w : Wheel) : SameEngine (s.setScr r w) (t.setScr r w) := by
  cases r
  exacts [{ h with scr1 := rfl }, { h with scr2 := rfl }, { h with scr3 := rfl }]

theorem SameEngine.stepRotors : SameEngine (stepRotors s) (stepRotors t) := by
  rw [stepRotors_eq, stepRotors_eq]
  exact { h with
    scr1 := congrArg stepDefault h.scr1
    scr2 := by simp only [h.scr1, h.scr2, h.notch1]
    scr3 := by simp only [h.scr2, h.scr3, h.notch2] }

/-- The seven lookups read the wheels only (R161). -/
theorem SameEngine.substitute_eq (x : Symbol) : substitute s x = substitute t x := by
  simp only [substitute, outbound, inbound, reflect, h.stat, h.refl, h.scr_eq]

end

/-- The start steps read and write scrambled wheels and start symbols only (R133). -/
theorem SameEngine.startSteps {rs : List Rotor} {s t u : State} {o : Option Miss} (h : SameEngine s t)
    (hs : startSteps rs s = (u, o)) : ∃ v, startSteps rs t = (v, o) ∧ SameEngine u v := by
  induction rs generalizing s t with
  | nil =>
    cases hs
    exact ⟨t, rfl, h⟩
  | cons r rs ih =>
    simp only [Machine.startSteps, h.scr_eq, h.start_eq] at hs ⊢
    cases hstep : stepTo (t.scr r) (t.start r) with
    | none =>
      rw [hstep] at hs
      cases hs
      exact ⟨t, rfl, h⟩
    | some w =>
      rw [hstep] at hs
      exact ih (h.setScr r w) hs

/-- Iterations on equal engines answer alike (R161). -/
theorem Iterates.of_sameEngine {xs ys : List Symbol} {s t u : State} {o : Option Miss}
    (hi : Iterates xs s ys u o) (h : SameEngine s t) : ∃ v, Iterates xs t ys v o ∧ SameEngine u v := by
  induction hi generalizing t with
  | done s => exact ⟨t, .done t, h⟩
  | answered hsub _ ih =>
    obtain ⟨v, hv, he⟩ := ih h.stepRotors
    exact ⟨v, .answered (h.stepRotors.substitute_eq _ ▸ hsub) hv, he⟩
  | failed hsub => exact ⟨stepRotors t, .failed (h.stepRotors.substitute_eq _ ▸ hsub), h.stepRotors⟩

/-! ### Updates that the host cannot tell apart (R262) -/

/-- `u` is `s` with other contents of the engine registers. -/
abbrev EngineOnly (s u : State) : Prop := u = { s with
  stat := u.stat, refl := u.refl, scr1 := u.scr1, scr2 := u.scr2, scr3 := u.scr3, notch1 := u.notch1
  notch2 := u.notch2, start1 := u.start1, start2 := u.start2, start3 := u.start3, cmsg := u.cmsg }

theorem stepRotors_engineOnly (s : State) : EngineOnly s (stepRotors s) := by rw [stepRotors_eq]

theorem Iterates.engineOnly {xs ys : List Symbol} {s u : State} {o : Option Miss} (h : Iterates xs s ys u o) :
    EngineOnly s u := by rw [h.frame]

theorem loadSteps_engineOnly {rs : List Rotor} {s u : State} {o : Option Miss}
    (h : startSteps rs (sliceFields s) = (u, o)) : EngineOnly s u := by
  have hframe : EngineOnly s (startSteps rs (sliceFields s)).1 := by rw [startSteps_frame, sliceFields_eq]
  rwa [h] at hframe

section
variable {s t : State} (h : SameToHost s t)
include h

theorem SameToHost.setInputs (ps : List PortInput) : SameToHost { s with inputs := ps } { t with inputs := ps } :=
  { h with inputs := rfl, engine := fun hr => { h.engine hr with } }

theorem SameToHost.takeResponse (r : Word) : SameToHost (takeResponse r s) (takeResponse r t) :=
  { h with rsp := rfl, taken := congrArg (r :: ·) h.taken, engine := fun hr => { h.engine hr with } }

theorem SameToHost.respond (err dv : Bool) (v : Byte) : SameToHost (respond err dv v s) (respond err dv v t) :=
  { h with rsp := rfl, engine := fun hr => { h.engine hr with } }

/-- An error hides the engine registers and the decoded symbols (R224, R227). -/
theorem SameToHost.raise (e : ErrCode) (site : FaultSite) (sym : Symbol) :
    SameToHost (raise e site sym s) (raise e site sym t) :=
  { h with
    errCode := rfl, faultSite := rfl, faultSym := rfl, engState := rfl, rsp := rfl
    engine := (nomatch ·), decoded := (nomatch ·) }

/-- Engine registers that were written alike. -/
theorem SameToHost.of_engineOnly {u v : State} (hu : EngineOnly s u) (hv : EngineOnly t v)
    (he : SameEngine u v) : SameToHost u v := by
  rw [hu, hv] at he ⊢
  exact { h with engine := fun _ => he }

/-- An empty packer, as EXT_END and a completed group leave it (R53). -/
theorem SameToHost.emptyPacker : SameToHost { s with extAcc := 0, extCnt := 0 } { t with extAcc := 0, extCnt := 0 } :=
  { h with extAcc := rfl, extCnt := rfl, engine := fun hr => { h.engine hr with } }

end

/-- States with the values R261 states and the same interface are alike to the host: nothing is captured, constructed or
decoded. -/
theorem ResetValues.sameToHost {s t : State} (hs : ResetValues s) (ht : ResetValues t) (hrsp : s.rsp = t.rsp)
    (hin : s.inputs = t.inputs) (htaken : s.taken = t.taken) : SameToHost s t where
  extAcc := hs.extAcc.trans ht.extAcc.symm
  extCnt := hs.extCnt.trans ht.extCnt.symm
  pktCount := hs.pktCount.trans ht.pktCount.symm
  engState := hs.engState.trans ht.engState.symm
  outCount := hs.outCount.trans ht.outCount.symm
  errCode := hs.errCode.trans ht.errCode.symm
  faultSite := hs.faultSite.trans ht.faultSite.symm
  faultSym := hs.faultSym.trans ht.faultSym.symm
  rsp := hrsp
  inputs := hin
  taken := htaken
  captured := by simp [hs.pktCount]
  engine := by simp [hs.engState]
  decoded := by simp [hs.engState]

/-! ### The bodies of the commands (R262) -/

section
variable {s t : State} (h : SameToHost s t)
include h

/-- The capture writes the same byte at the same place, and counts it (R104). -/
theorem SameToHost.capture (hs : s.payload.wf = true) (ht : t.payload.wf = true) (p : Byte) :
    SameToHost (capture p s) (capture p t) := by
  have hcount : (Machine.capture p s).pktCount = (Machine.capture p t).pktCount :=
    BitVec.eq_of_toNat_eq (by rw [capture_pktCount, capture_pktCount, h.pktCount])
  have hread : ∀ a, a < 514 → a + 4 < (Machine.capture p s).pktCount.toNat →
      (Machine.capture p s).payload.read a = (Machine.capture p t).payload.read a := by
    intro a ha hlt
    rw [capture_pktCount] at hlt
    rw [capture_read p hs, capture_read p ht, ← h.pktCount]
    split
    · rfl
    · exact h.captured a ha (by split at hlt <;> omega)
  rw [capture_frame p s, capture_frame p t]
  exact { h with pktCount := hcount, captured := hread, engine := fun hr => { h.engine hr with } }

theorem SameToHost.extByteBody (hs : s.payload.wf = true) (ht : t.payload.wf = true) (d : Byte) :
    SameToHost (extByteBody d s) (extByteBody d t) := by
  have hpack : packBit d s = packBit d t := by simp only [packBit, h.extAcc, h.extCnt]
  simp only [Machine.extByteBody, hpack, h.extCnt]
  split
  · exact (h.emptyPacker.capture hs ht _).respond ..
  · have hacc : SameToHost { s with extAcc := packBit d t, extCnt := t.extCnt + 1 }
        { t with extAcc := packBit d t, extCnt := t.extCnt + 1 } :=
      { h with extAcc := rfl, extCnt := rfl, engine := fun hr => { h.engine hr with } }
    exact hacc.respond ..

/-- LOAD of a full capture reads captured entries only, so it copies the same fields (R54, R130). -/
theorem SameToHost.sliceFields_sameEngine (hfull : 518 ≤ s.pktCount.toNat) :
    SameEngine (sliceFields s) (sliceFields t) := by
  have hread (a : Nat) (ha : a < 514) : s.payload.read a = t.payload.read a := h.captured a ha (by omega)
  have hslice {n a : Nat} (hn : a + n ≤ 514) : payloadSlice n a hn s = payloadSlice n a hn t :=
    Vector.ext fun j hj => by rw [payloadSlice_getElem, payloadSlice_getElem, hread _ (by omega)]
  rw [sliceFields_eq, sliceFields_eq]
  exact {
    stat := hslice (by decide), refl := hslice (by decide), cmsg := hslice (by decide)
    scr1 := hslice (by decide), scr2 := hslice (by decide), scr3 := hslice (by decide)
    notch1 := hread _ (by decide), notch2 := hread _ (by decide)
    start1 := hread _ (by decide), start2 := hread _ (by decide), start3 := hread _ (by decide)
    outCount := h.outCount, engState := h.engState }

/-- LOAD's last writes, with the engine registers built alike (R130). -/
theorem SameToHost.enterReady (he : SameEngine s t) :
    SameToHost { s with outCount := 0, engState := .ready } { t with outCount := 0, engState := .ready } :=
  { h with
    outCount := rfl, engState := rfl
    engine := fun _ => { he with outCount := rfl, engState := rfl }
    decoded := fun _ _ hk => absurd hk (Nat.not_lt_zero _) }

theorem SameToHost.loadBody : SameToHost (loadBody s) (loadBody t) := by
  rcases Nat.lt_or_ge s.pktCount.toNat 518 with hshort | hfull
  · rw [loadBody_of_short hshort, loadBody_of_short (h.pktCount ▸ hshort)]
    exact h.raise ..
  have hfull' : 518 ≤ t.pktCount.toNat := h.pktCount ▸ hfull
  have hslice := h.sliceFields_sameEngine hfull
  rcases hsteps : startSteps [.r1, .r2, .r3] (sliceFields s) with ⟨u, o⟩
  obtain ⟨v, hsteps', he⟩ := hslice.startSteps hsteps
  have hbuilt := h.of_engineOnly (loadSteps_engineOnly hsteps) (loadSteps_engineOnly hsteps') he
  simp only [Machine.loadBody, Nat.not_lt.2 hfull, Nat.not_lt.2 hfull', if_false, hsteps, hsteps']
  cases o with
  | some m => exact hbuilt.raise ..
  | none => exact (hbuilt.enterReady he).respond ..

theorem SameToHost.cipherBody (hr : s.engState = .ready) (d : Symbol) :
    SameToHost (cipherBody d s) (cipherBody d t) := by
  have he := (h.engine hr).stepRotors
  have hstepped := h.of_engineOnly (stepRotors_engineOnly s) (stepRotors_engineOnly t) he
  simp only [Machine.cipherBody, he.substitute_eq]
  cases substitute (stepRotors t) d with
  | ok y => exact hstepped.respond ..
  | error m => exact hstepped.raise ..

/-- DECODE_MSG follows the same iterations, so it writes and counts the same symbols or fails alike (R163, R164). -/
theorem SameToHost.decodeMsgBody (hr : s.engState = .ready) : SameToHost (decodeMsgBody s) (decodeMsgBody t) := by
  obtain ⟨ys, u, o, hi⟩ := exists_iterates s.cmsg.toList s
  obtain ⟨v, hi', he⟩ := hi.of_sameEngine (h.engine hr)
  have hstepped := h.of_engineOnly hi.engineOnly hi'.engineOnly he
  rw [(h.engine hr).cmsg] at hi'
  cases o with
  | none =>
    obtain ⟨q, hq, hs⟩ := decodeMsgBody_of_completed hi
    obtain ⟨q', hq', ht⟩ := decodeMsgBody_of_completed hi'
    obtain rfl : q = q' := Vector.toList_inj.1 (hq.trans hq'.symm)
    rw [hs, ht]
    exact { hstepped with
      outCount := rfl, rsp := rfl, engine := fun _ => { he with outCount := rfl }, decoded := fun _ _ _ => rfl }
  | some m =>
    obtain ⟨q, -, hs⟩ := decodeMsgBody_of_failed hi
    obtain ⟨q', -, ht⟩ := decodeMsgBody_of_failed hi'
    rw [hs, ht]
    exact { hstepped.raise .consistency m.site m.sym with
      outCount := rfl, engine := (nomatch ·), decoded := (nomatch ·) }

theorem SameToHost.readEntry {table table' : List Byte} (htable : table = table') (i : Byte) :
    SameToHost (readEntry table i s) (readEntry table' i t) := by
  rw [← htable, Machine.readEntry, Machine.readEntry]
  cases table[i.toNat]? with
  | some v => exact h.respond ..
  | none => exact h.raise ..

/-- The symbols READ PLAIN can answer (R34, R192). -/
theorem SameToHost.plainTable_eq (hr : s.engState = .ready) : plainTable s = plainTable t := by
  refine List.ext_getElem (by simp [plainTable, h.outCount]) fun k hk _ => ?_
  simp only [plainTable, List.length_take, Vector.length_toList, Nat.lt_min] at hk
  simpa [plainTable] using h.decoded hr ⟨k, hk.2⟩ hk.1

theorem SameToHost.regsTable_eq : regsTable s = regsTable t := by
  simp only [regsTable, h.extCnt, h.extAcc, h.pktCount, h.outCount, h.errCode, h.faultSite, h.faultSym]

theorem SameToHost.statusByte_eq : statusByte s = statusByte t := by
  simp only [statusByte, extPart, msgDone, capFull, h.extCnt, h.outCount, h.errCode, h.pktCount, h.engState]

end

/-! ### Every word (R262) -/

/-- Both outcomes are next states, and the host cannot tell them apart. -/
abbrev NextSameToHost (o o' : Host.Outcome State Fault Refusal) : Prop :=
  ∃ s t, o = .next s ∧ o' = .next t ∧ SameToHost s t

section
variable {s t : State} (h : SameToHost s t)
include h

theorem SameToHost.resetState : SameToHost (resetState s) (resetState t) :=
  (resetState_resetValues s).sameToHost (resetState_resetValues t) h.rsp h.inputs h.taken

/-- The FAULTED gate answers alike, or it runs a body that does (R226, R227). -/
theorem SameToHost.gated {body : State → State}
    (hbody : s.engState ≠ .faulted → SameToHost (body s) (body t)) :
    NextSameToHost (gated body s) (gated body t) := by
  by_cases hf : s.engState = .faulted
  · rw [gated_of_faulted hf, gated_of_faulted (h.engState ▸ hf), answerFaulted, answerFaulted, h.errCode]
    exact ⟨_, _, rfl, rfl, h.respond ..⟩
  · rw [gated_of_not_faulted hf, gated_of_not_faulted (h.engState ▸ hf)]
    exact ⟨_, _, rfl, rfl, hbody hf⟩

/-- A command that needs READY raises NOT_READY alike, or it runs a body that answers alike (R221, R226). -/
theorem SameToHost.gated_whenReady {body : State → State}
    (hbody : s.engState = .ready → SameToHost (body s) (body t)) :
    NextSameToHost (Machine.gated (whenReady body) s) (Machine.gated (whenReady body) t) := by
  refine h.gated fun hf => ?_
  cases hs : s.engState with
  | idle =>
    rw [whenReady_of_idle hs, whenReady_of_idle (h.engState ▸ hs)]
    exact h.raise ..
  | ready =>
    rw [whenReady_of_ready hs, whenReady_of_ready (h.engState ▸ hs)]
    exact hbody hs
  | faulted => exact absurd hs hf

theorem SameToHost.readTable {table : State → List Byte} (htable : s.engState = .ready → table s = table t)
    (i : Byte) : NextSameToHost (readTable table i s) (readTable table i t) :=
  h.gated_whenReady fun hr => h.readEntry (htable hr) i

theorem SameToHost.exec_readRegs (i : Byte) : NextSameToHost (exec (.readRegs i) s) (exec (.readRegs i) t) := by
  rcases Nat.lt_or_ge i.toNat 8 with hi | hi
  · simp only [exec, execReadRegs, hi, if_true]
    exact ⟨_, _, rfl, rfl, h.readEntry h.regsTable_eq i⟩
  · rw [exec_readRegs_of_le hi, exec_readRegs_of_le hi]
    exact h.gated fun _ => h.raise ..

theorem SameToHost.exec_status : NextSameToHost (exec .status s) (exec .status t) := by
  refine ⟨_, _, rfl, rfl, ?_⟩
  rw [h.statusByte_eq]
  exact h.respond ..

variable (hs : s.payload.wf = true) (ht : t.payload.wf = true)
include hs ht

/-- No command's response shows what a reset leaves unspecified (R262). -/
theorem SameToHost.exec (i : Instr) : NextSameToHost (exec i s) (exec i t) := by
  cases i with
  | nop => exact ⟨_, _, rfl, rfl, h.respond ..⟩
  | extByte d => exact h.gated fun _ => h.extByteBody hs ht d
  | extEnd => exact h.gated fun _ => h.emptyPacker.respond ..
  | load => exact h.gated fun _ => h.loadBody
  | cipher d => exact h.gated_whenReady fun hr => h.cipherBody hr d
  | decodeMsg => exact h.gated_whenReady h.decodeMsgBody
  | readStat i => exact h.readTable (fun hr => by rw [(h.engine hr).stat]) i
  | readRefl i => exact h.readTable (fun hr => by rw [(h.engine hr).refl]) i
  | readScr1 i => exact h.readTable (fun hr => by rw [(h.engine hr).scr1]) i
  | readScr2 i => exact h.readTable (fun hr => by rw [(h.engine hr).scr2]) i
  | readScr3 i => exact h.readTable (fun hr => by rw [(h.engine hr).scr3]) i
  | readNotch i =>
    exact h.readTable (fun hr => by rw [notchTable, notchTable, (h.engine hr).notch1, (h.engine hr).notch2]) i
  | readStart i =>
    refine h.readTable (fun hr => ?_) i
    rw [startTable, startTable, (h.engine hr).start1, (h.engine hr).start2, (h.engine hr).start3]
  | readCmsg i => exact h.readTable (fun hr => by rw [(h.engine hr).cmsg]) i
  | readPlain i => exact h.readTable h.plainTable_eq i
  | readRegs i => exact h.exec_readRegs i
  | status => exact h.exec_status
  | softReset => exact ⟨_, _, rfl, rfl, h.resetState.respond ..⟩

theorem SameToHost.runWord (w : Word) : NextSameToHost (runWord w s) (runWord w t) := by
  cases hd : decode w with
  | ok i =>
    rw [runWord_of_decode_ok hd, runWord_of_decode_ok hd]
    exact h.exec hs ht i
  | error e =>
    rw [runWord_of_decode_error hd, runWord_of_decode_error hd]
    exact h.gated fun _ => h.raise ..

/-- One step, by what its edge brings: a reset, a held response, nothing, or an accepted word (R81, R260, R262). -/
theorem SameToHost.step : NextSameToHost (step s) (step t) := by
  cases hin : s.inputs with
  | nil =>
    exact ⟨_, _, (blockHoldsItsStateBetweenCommands s).1 hin,
      (blockHoldsItsStateBetweenCommands t).1 (h.inputs ▸ hin), h⟩
  | cons p rest =>
    have hin' : t.inputs = p :: rest := h.inputs ▸ hin
    have hpast := h.setInputs rest
    cases hrst : p.rstN with
    | false =>
      exact ⟨_, _, step_of_pinReset hin hrst, step_of_pinReset hin' hrst,
        { hpast.resetState with rsp := rfl, engine := (nomatch ·) }⟩
    | true =>
      cases hrsp : s.rsp with
      | some r =>
        refine ⟨_, _, step_of_held hin hrst hrsp, step_of_held hin' hrst (h.rsp ▸ hrsp), ?_⟩
        split
        exacts [hpast.takeResponse r, hpast]
      | none =>
        cases hcmd : p.cmd with
        | none =>
          exact ⟨_, _, step_of_not_offered hin hrst hrsp hcmd,
            step_of_not_offered hin' hrst (h.rsp ▸ hrsp) hcmd, hpast⟩
        | some w =>
          rw [step_of_offered hin hrst hrsp hcmd, step_of_offered hin' hrst (h.rsp ▸ hrsp) hcmd]
          exact hpast.runWord hs ht w

end

/-- Settles O53: a step's outcome is determined, and `SameToHost.step` gives both. -/
theorem unspecifiedRegistersAreNeverObserved : Obligations.UnspecifiedRegistersAreNeverObserved := by
  intro s t s' hs ht h hstep
  obtain ⟨u, t', hu, ht', hsame⟩ := h.step hs ht
  obtain rfl := Host.Outcome.next.inj (hu.symm.trans hstep)
  exact ⟨t', ht', hsame⟩

/-! ### Runs from the reset state (R261, R270) -/

/-- No word makes the capture buffer lose its canonical form (log entry 4). -/
theorem Effect.payload_wf {s t : State} (h : Effect s t) (hs : s.payload.wf = true) : t.payload.wf = true := by
  cases h with
  | answered | raised | extEnd => exact hs
  | extByte d =>
    unfold extByteBody
    split
    exacts [capture_wf (s := { s with extAcc := 0, extCnt := 0 }) _ hs, hs]
  | loaded u _ _ hsteps => exact (loadSteps_sameTracked hsteps).payload ▸ hs
  | loadMissed u m _ _ hsteps => exact (loadSteps_sameTracked hsteps).payload ▸ hs
  | ciphered d y | cipherMissed d m => rwa [stepRotors_eq]
  | decoded u _ hloop | decodeMissed u m _ hloop =>
    have hframe := congrArg State.payload (decodeLoop_frame (List.finRange 39) { s with outCount := 0 })
    rw [hloop] at hframe
    exact hframe ▸ hs
  | reset => rfl

theorem step_payload_wf {s t : State} (h : step s = .next t) (hs : s.payload.wf = true) : t.payload.wf = true := by
  obtain ⟨-, e⟩ | ⟨p, rest, -, ⟨-, e⟩ | ⟨-, r, -, -, e⟩ | ⟨-, e⟩ | ⟨-, -, w, -, e⟩⟩ := step_cases s <;> rw [e] at h
  · exact Host.Outcome.next.inj h ▸ hs
  · exact Host.Outcome.next.inj h ▸ wf_resetState { s with inputs := rest }
  · exact Host.Outcome.next.inj h ▸ hs
  · exact Host.Outcome.next.inj h ▸ hs
  · obtain ⟨u, hu, heffect⟩ := runWord_effect w { s with inputs := rest }
    exact Host.Outcome.next.inj (hu.symm.trans h) ▸ heffect.payload_wf hs

/-- A run's first step, in front of the others. -/
theorem run_succ_of_step {M : Host.Core} {s t : M.State} (h : M.step s = .next t) (k : Nat) :
    M.run (k + 1) s = M.run k t := by rw [Host.Core.run, h]

/-- Runs of any length from states the host cannot tell apart end in such states (R262, R270). -/
theorem SameToHost.run (k : Nat) {s t : State} (h : SameToHost s t) (hs : s.payload.wf = true)
    (ht : t.payload.wf = true) : NextSameToHost (Host.Core.run core k s) (Host.Core.run core k t) := by
  induction k generalizing s t with
  | zero => exact ⟨s, t, rfl, rfl, h⟩
  | succ k ih =>
    obtain ⟨s', t', hstep, hstep', h'⟩ := h.step hs ht
    rw [run_succ_of_step (M := core) hstep, run_succ_of_step (M := core) hstep']
    exact ih h' (step_payload_wf hstep hs) (step_payload_wf hstep' ht)

/-- Settles O54: states with the stated reset values are alike to the host, and so are the ends of their runs. -/
theorem responsesAreAFunctionOfTheInputs : Obligations.ResponsesAreAFunctionOfTheInputs := by
  intro s t hs ht hwf hwf' hin hrsp htaken k
  obtain ⟨s', t', hrun, hrun', h⟩ := (hs.sameToHost ht hrsp hin htaken).run k hwf hwf'
  exact ⟨s', t', hrun, hrun', h.taken, h.rsp⟩

/-- Settles O42: RESET_STATE gives the stated values, and STATUS follows from them alone. -/
theorem softResetGivesTheResetState : Obligations.SoftResetGivesTheResetState := by
  intro s
  have hreset : ResetValues (ok (resetState s)) := { resetState_resetValues s with }
  exact ⟨_, rfl, hreset, rfl, rfl, rfl, exec_status_of_resetValues hreset⟩

end Sys2Proof.Machine
